-- ==== Sys2Proof/Word.lean ====
section
/-! DEFINITION. The word types of the core (00_scope R8, R10): words, bytes, command and response words, and the
fixed-size stores built from them. -/

namespace Sys2Proof

/-- A word: a 64-bit unsigned integer (R8 `WORD`, R10). -/
abbrev Word := BitVec 64

/-- A byte: an 8-bit unsigned integer (R10). -/
abbrev Byte := BitVec 8

/-- A command word (R8 `CMDW`, R90). -/
abbrev CmdWord := BitVec 16

/-- A response word (R8 `RESPW`, R100). -/
abbrev RespWord := BitVec 8

/-- The eight hash registers `H[0..7]`, or any eight words (R8 `NREG`, R21). -/
abbrev Regs := Vector Word 8

/-- One block: 128 bytes, byte 0 first (R8 `BLOCK`, R25). -/
abbrev Block := Vector Byte 128

/-- The contents of the digest output register `DOUT[0..63]` (R31). -/
abbrev DigestReg := Vector Byte 64

end Sys2Proof
end

