-- ==== Sys2Proof/Syntax.lean ====
section
/-! DEFINITION. The commands of the core as plain data: one constructor per row of `spec/opcode_table.json`. -/

namespace Sys2Proof

/-- The hash mode (10_state R22): "enumerated value {SHA384, SHA512}". -/
inductive Mode where
  | sha384
  | sha512
  deriving DecidableEq, Repr

/-- The three commands (30_encoding R92 to R94). The operand types are exact: every term is a command of the core. -/
inductive Instr where
  /-- INIT m: create a context (R92, R121). -/
  | init (m : Mode)
  /-- UPDB d: absorb one message byte (R93, R124). -/
  | updb (d : Byte)
  /-- FINISH: pad, compress, deliver the digest (R94, R127). -/
  | finish
  deriving DecidableEq, Repr

/-- Why a command word is illegal: the four kinds of illegal word that R97 lists. All four are the one error
`ERR_ILLEGAL`; the names are the model's (log 17). -/
inductive Illegal where
  /-- `op` outside {1, 2, 3}. -/
  | opcode
  /-- `rsv` not `0000`. -/
  | reserved
  /-- an INIT with any of `arg[7:1]` set. -/
  | initArgument
  /-- a FINISH with `arg` not zero. -/
  | finishArgument
  deriving DecidableEq, Repr

/-- What the decoder answers: "a command or \"illegal\"" (R98). -/
inductive Decoded where
  | command (i : Instr)
  | illegal (why : Illegal)
  deriving DecidableEq, Repr

end Sys2Proof
end

