-- ==== Sys2Proof/Machine/Bits.lean ====
section
/-! DEFINITION. The arithmetic and byte-order primitives (00_scope R11, 42 R161 to R164, 20 R63). Addition modulo
2^64 is `+` on `Word`; `AND`, `XOR`, `NOT64` are `&&&`, `^^^`, `~~~`. -/

namespace Sys2Proof.Machine

/-- `SHR(n, x)`: logical shift right, zeros enter at the top (R11, R163). -/
def shr (n : Nat) (x : Word) : Word := x >>> n

/-- `ROTR(n, x)` for `0 < n < 64`: `SHR(n, x) OR ((x * 2^(64-n)) mod 2^64)` (R162). -/
def rotr (n : Nat) (x : Word) : Word := shr n x ||| x <<< (64 - n)

/-- `be64(b0..b7)`: the word of eight bytes, first byte most significant (R11). -/
def be64 (b0 b1 b2 b3 b4 b5 b6 b7 : Byte) : Word :=
  BitVec.ofNat 64 (b0.toNat * 2 ^ 56 + b1.toNat * 2 ^ 48 + b2.toNat * 2 ^ 40 + b3.toNat * 2 ^ 32
    + b4.toNat * 2 ^ 24 + b5.toNat * 2 ^ 16 + b6.toNat * 2 ^ 8 + b7.toNat)

/-- `bytes_be(N, v)[j]`: `floor(v / 2^(8*(N-1-j))) mod 256` (R11). -/
def byteBE (n v j : Nat) : Byte := BitVec.ofNat 8 (v / 2 ^ (8 * (n - 1 - j)))

/-- `bytes_be(N, v)`: N bytes, the most significant first (R11). -/
def bytesBE (n v : Nat) : List Byte := (List.range n).map (byteBE n v)

/-- The vector whose entry `i` is `f i`. -/
def tabulate {α : Type} (n : Nat) (f : Fin n → α) : Vector α n := ⟨(List.ofFn f).toArray, by simp⟩

end Sys2Proof.Machine
end

