-- ==== Sys2Proof/Machine/Schedule.lean ====
section
/-! DEFINITION. The message-schedule generator (41_message_schedule): block parsing, the two small sigma functions and
the 80 schedule words. A pure function of the block (R140). -/

namespace Sys2Proof.Machine

/-- `MemRead(a, 8)`: eight bytes of a block from byte index `a`, first byte most significant (00_scope R12). -/
def memRead64 (b : Block) (a : Nat) (ha : a + 8 ≤ 128) : Word :=
  be64 b[a] b[a + 1] b[a + 2] b[a + 3] b[a + 4] b[a + 5] b[a + 6] b[a + 7]

/-- `M[0..15]`: the sixteen big-endian words of the block (R141, 20 R64). -/
def blockWords (b : Block) : Vector Word 16 := tabulate 16 fun i => memRead64 b (8 * i.val) (by omega)

/-- `sigma0` (R142); the third term is a shift. -/
def smallSigma0 (x : Word) : Word := rotr 1 x ^^^ rotr 8 x ^^^ shr 7 x

/-- `sigma1` (R143); the third term is a shift. -/
def smallSigma1 (x : Word) : Word := rotr 19 x ^^^ rotr 61 x ^^^ shr 6 x

/-- `W[0 .. 15+n]`: the block's words (R144), then `n` derived words in increasing order (R145). The word pushed is
`W[t]` for `t = 16 + n`, from `W[t-2]`, `W[t-7]`, `W[t-15]` and `W[t-16]`. -/
def scheduleUpTo (b : Block) : (n : Nat) → Vector Word (16 + n)
  | 0 => blockWords b
  | n + 1 =>
    let w := scheduleUpTo b n
    w.push (smallSigma1 w[n + 14] + w[n + 9] + smallSigma0 w[n + 1] + w[n])

/-- `W[0..79]` (R140, R144, R145). -/
def schedule (b : Block) : Vector Word 80 := scheduleUpTo b 64

end Sys2Proof.Machine
end

