-- ==== Sys2Proof/Machine/Compression.lean ====
section
/-! DEFINITION. The compression step (42_compression): the four round functions, the round, the 80 rounds and the
feed-forward. It reads no mode, raises no error and has no input for which it is undefined (R160, R181). -/

namespace Sys2Proof.Machine

/-- `Sigma0` (R165): three rotations. -/
def bigSigma0 (x : Word) : Word := rotr 28 x ^^^ rotr 34 x ^^^ rotr 39 x

/-- `Sigma1` (R166): three rotations. -/
def bigSigma1 (x : Word) : Word := rotr 14 x ^^^ rotr 18 x ^^^ rotr 41 x

/-- `Ch` (R167). -/
def ch (x y z : Word) : Word := (x &&& y) ^^^ (~~~x &&& z)

/-- `Maj` (R168). -/
def maj (x y z : Word) : Word := (x &&& y) ^^^ (x &&& z) ^^^ (y &&& z)

/-- The working registers `a..h` (10_state R35, 42 R176): local to one compression step. -/
structure Working where
  a : Word
  b : Word
  c : Word
  d : Word
  e : Word
  f : Word
  g : Word
  h : Word
  deriving DecidableEq, Repr

/-- Loading the working copy, in order (R176). -/
def Working.load (r : Regs) : Working :=
  { a := r[0], b := r[1], c := r[2], d := r[3], e := r[4], f := r[5], g := r[6], h := r[7] }

/-- `T1` of a round with constant `k` and schedule word `w` (R177). -/
def roundT1 (k w : Word) (x : Working) : Word := x.h + bigSigma1 x.e + ch x.e x.f x.g + k + w

/-- `T2` of a round (R177). -/
def roundT2 (x : Working) : Word := bigSigma0 x.a + maj x.a x.b x.c

/-- One round (R177): every right-hand side reads the old working registers. -/
def roundStep (k w : Word) (x : Working) : Working :=
  { a := roundT1 k w x + roundT2 x, b := x.a, c := x.b, d := x.c,
    e := x.d + roundT1 k w x, f := x.e, g := x.f, h := x.g }

/-- The working registers after rounds `0 .. n-1`, in increasing order; round `t` uses `K[t]` and `W[t]` (R178). -/
def rounds (w : Vector Word 80) (x : Working) : (n : Nat) → n ≤ 80 → Working
  | 0, _ => x
  | n + 1, hn => roundStep roundConstants[n] w[n] (rounds w x n (by omega))

/-- Feed-forward: input register `i` plus working register `i` (R180). -/
def feedForward (r : Regs) (x : Working) : Regs :=
  #v[r[0] + x.a, r[1] + x.b, r[2] + x.c, r[3] + x.d, r[4] + x.e, r[5] + x.f, r[6] + x.g, r[7] + x.h]

/-- `Compress(Hin[0..7], B[0..127])` (R160, R175). -/
def compress (r : Regs) (b : Block) : Regs := feedForward r (rounds (schedule b) (Working.load r) 80 (by omega))

end Sys2Proof.Machine
end

