-- ==== Sys2Proof/Config.lean ====
section
/-! DEFINITION. What one implementation fixes (the counter width) and the free values (what reset leaves in the
elements the spec calls unspecified). -/

namespace Sys2Proof

/-- `LENW`, the width of the bit-length counter: 128 in this hardware (00_scope R8, R9; log 7). -/
abbrev Config.lenw : Nat := 128

/-- A value of the bit-length counter `LEN` (R23). -/
abbrev BitCount := BitVec Config.lenw

/-- The contents of the elements that reset leaves unspecified (10_state R40). -/
structure Leftover where
  h : Regs
  len : BitCount
  fill : BitVec 7
  buf : Block
  dout : DigestReg
  deriving DecidableEq, Repr, Inhabited

/-- FREE VALUE: what the `k`-th reset event leaves in `H`, `LEN`, `FILL`, `BUF` and `DOUT`, given what they held before
it (10_state R40: "each may hold any value of its width, not necessarily the same value after two resets"; 70 R262: the
old digest "may or may not still be there"). DESIGN CHOICE: what is left depends on the count and on the old contents of
these five elements and on nothing else (log 4). -/
opaque Config.leftByReset : Nat → Leftover → Leftover

end Sys2Proof
end

