-- ==== Sys2Proof/Machine/State.lean ====
section
/-! DEFINITION. The state of one core (10_state R20) as plain data, what the host has issued and been answered, the
state after reset, and the reasons a step can stop (there are none but the host interface's `notModelled`). -/

namespace Sys2Proof.Machine

/-- `PHASE` (10_state R27). The fourth value of the 2-bit field is never written and is left out of the type, as R27
allows (log 18). -/
inductive Phase where
  /-- 0: no context exists. -/
  | idle
  /-- 1: a context exists and has not been finished. -/
  | active
  /-- 2: the context has been finished; `DOUT` holds its digest. -/
  | done
  deriving DecidableEq, Repr

/-- The value of `ECODE` and of the response's `code` field (10_state R29, 60 R231). -/
inductive ErrCode where
  /-- 0: no error. -/
  | noError
  /-- 1: `ERR_ILLEGAL`. -/
  | illegal
  /-- 2: `ERR_STATE`. -/
  | badState
  /-- 3: `ERR_LEN`. -/
  | length
  deriving DecidableEq, Repr

/-- What reaches the core from outside (00_scope R7, 70 R260; log 1, log 5). -/
inductive HostInput where
  /-- The host issues a command word. -/
  | command (w : CmdWord)
  /-- The reset event. `lost` is the command that was in progress when reset arrived, if there was one: it is lost
  without a response. -/
  | reset (lost : Option CmdWord)
  deriving DecidableEq, Repr

/-- The core's state (R20), and the model's own record of the host's side. -/
structure State where
  /-- `H[0..7]` (R21). -/
  h : Regs
  /-- `MODE` (R22). -/
  mode : Mode
  /-- `LEN` (R23). -/
  len : BitCount
  /-- `FILL` (R24). -/
  fill : BitVec 7
  /-- `BUF[0..127]` (R25). -/
  buf : Block
  /-- `PHASE` (R27). -/
  phase : Phase
  /-- `ERR` (R28). -/
  err : Bool
  /-- `ECODE` (R29). -/
  ecode : ErrCode
  /-- `DOUT[0..63]` (R31). -/
  dout : DigestReg
  /-- MODEL'S OWN: what the host has issued and the core has not yet taken, oldest first (20 R75; log 1). -/
  inbox : List HostInput
  /-- MODEL'S OWN: the responses given so far, oldest first (30 R100; log 6). -/
  responses : List RespWord
  /-- MODEL'S OWN: how many reset events have happened; it only indexes the free values of `Config` (log 4). -/
  resets : Nat
  deriving DecidableEq, Repr

/-- Nothing faults: the step function is total (40 R120) and a rejected command is a next state (60 R236), so no
constructor is needed. -/
inductive Fault where
  deriving DecidableEq, Repr

/-- No meaning refuses; the one constructor is the host interface's. -/
inductive Refusal where
  /-- Raised by an arm of `exec` whose instruction has no meaning yet. No arm raises it. It is safe: the machine
  stops where the hardware goes on. -/
  | notModelled (mnemonic : String)
  deriving DecidableEq, Repr

/-- The state after reset (10_state R40). `PHASE`, `MODE`, `ERR`, `ECODE` have the spec's values. `H`, `LEN`, `FILL`,
`BUF` and `DOUT` are unspecified there and hold zeros here (DESIGN CHOICE, unsafe: log 3). -/
def State.reset : State where
  h := Vector.replicate 8 0#64
  mode := .sha384
  len := 0#128
  fill := 0#7
  buf := Vector.replicate 128 0#8
  phase := .idle
  err := false
  ecode := .noError
  dout := Vector.replicate 64 0#8
  inbox := []
  responses := []
  resets := 0

end Sys2Proof.Machine
end

