-- ==== Sys2Proof/Machine/Flags.lean ====
section
/-! DEFINITION. The one flag `ERR` with its code `ECODE`, the conditions that reject a command, and the numeric values
of the control fields. Arithmetic sets no flag (10_state R28, 42 R161). -/

namespace Sys2Proof.Machine

/-- The two-bit value of `PHASE` (10_state R27). -/
def Phase.code : Phase → BitVec 2
  | .idle => 0#2
  | .active => 1#2
  | .done => 2#2

/-- The two-bit value of `ECODE` (10_state R29, 60 R231). -/
def ErrCode.code : ErrCode → BitVec 2
  | .noError => 0#2
  | .illegal => 1#2
  | .badState => 2#2
  | .length => 3#2

/-- The context is live: `PHASE = ACTIVE` and `ERR = 0` (00_scope R15, 60 R233). -/
def State.live (s : State) : Bool := s.phase == .active && !s.err

/-- The counter is at its limit: `LEN + 8 >= 2^LENW`, as natural numbers (43 R195). -/
def State.lenFull (s : State) : Bool := decide (2 ^ Config.lenw ≤ s.len.toNat + 8)

/-- `ECODE` after an error `c`: the first error since the last accepted INIT or reset stays (60 R236, R239). -/
def firstError (err : Bool) (old c : ErrCode) : ErrCode := if err then old else c

/-- The response word of an error: `0x80 OR code` (60 R236, 30 R100). -/
def errResponse (c : ErrCode) : RespWord := 0x80#8 ||| c.code.setWidth 8

end Sys2Proof.Machine
end

