-- ==== Sys2Proof/WellFormed.lean ====
section
/-! DEFINITION. Which command words are well-formed (30_encoding R97). The operands of `Instr` have exactly the
widths of their fields, so every term of `Instr` is well-formed and the checks are on words: one per command, each
the match-and-mask test of the opcode table. -/

namespace Sys2Proof

/-- R92: match `0x1000` under mask `0xFFFE`. -/
def isInitWord (w : CmdWord) : Bool := w &&& 0xFFFE#16 == 0x1000#16

/-- R93: match `0x2000` under mask `0xFF00`. -/
def isUpdbWord (w : CmdWord) : Bool := w &&& 0xFF00#16 == 0x2000#16

/-- R94: match `0x3000` under mask `0xFFFF`. -/
def isFinishWord (w : CmdWord) : Bool := w &&& 0xFFFF#16 == 0x3000#16

/-- R97: one of the 259 words of R92, R93 and R94. -/
def wellFormedWord (w : CmdWord) : Bool := isInitWord w || isUpdbWord w || isFinishWord w

end Sys2Proof
end

