-- ==== Sys2Proof/Decode.lean ====
section
/-! DEFINITION. The decoder (30_encoding R98), total on 16-bit words and naming why a word is illegal, and after it
the encoder. Decoding reads the word and nothing else (R90). -/

namespace Sys2Proof

/-- `word[15:12]` (R91). -/
def opField (w : CmdWord) : BitVec 4 := w.extractLsb' 12 4

/-- `word[11:8]`, which must be `0000` (R91). -/
def rsvField (w : CmdWord) : BitVec 4 := w.extractLsb' 8 4

/-- `word[7:0]` (R91); for UPDB the message byte `d`, unsigned, not extended (R95). -/
def argField (w : CmdWord) : Byte := w.extractLsb' 0 8

/-- The mode that bit `m = word[0]` selects: 0 is SHA384, 1 is SHA512 (R95). -/
def Mode.ofBit : Bool → Mode
  | false => .sha384
  | true => .sha512

/-- The one-bit value of a mode (10_state R22). -/
def Mode.code : Mode → BitVec 1
  | .sha384 => 0#1
  | .sha512 => 1#1

/-- Which of R97's four kinds of illegal word `w` is, for a word that is not well-formed. -/
def whyIllegal (w : CmdWord) : Illegal :=
  if opField w = 1#4 ∨ opField w = 2#4 ∨ opField w = 3#4 then
    if rsvField w = 0#4 then
      if opField w = 1#4 then .initArgument else .finishArgument
    else .reserved
  else .opcode

/-- The decoder (R98). -/
def decode (w : CmdWord) : Decoded :=
  if isInitWord w then .command (.init (Mode.ofBit (w.getLsbD 0)))
  else if isUpdbWord w then .command (.updb (argField w))
  else if isFinishWord w then .command .finish
  else .illegal (whyIllegal w)

/-- The encoder (R98): `INIT(m) -> 0x1000 + m`, `UPDB(d) -> 0x2000 + d`, `FINISH -> 0x3000`. -/
def encode : Instr → CmdWord
  | .init m => 0x1000#16 + m.code.setWidth 16
  | .updb d => 0x2000#16 + d.setWidth 16
  | .finish => 0x3000#16

/-- The instruction that the decoder reads from a word of the opcode table, numbered as the table numbers it: one
16-bit command word, bit 0 the least significant (R91; log 12). Bits above `nbits` are 0. -/
def decodeTableWord (nbits w : Nat) : Option Instr :=
  if nbits ≤ 16 then
    match decode (BitVec.ofNat 16 (w % 2 ^ nbits)) with
    | .command i => some i
    | .illegal _ => none
  else none

end Sys2Proof
end

