-- ==== Sys2Proof/Machine/Operands.lean ====
section
/-! DEFINITION. What the operands select. The mode is multiplexed into the datapath at exactly two points (44 R214):
the initial-value table and the digest length. The data byte of UPDB is written as it is (30 R95). -/

namespace Sys2Proof.Machine

/-- `IV(m)`: the table that mode `m` selects (44 R212). -/
def initialValues : Mode → Regs
  | .sha384 => iv384
  | .sha512 => iv512

/-- `DLEN(m)` in bytes (10_state R32, 44 R216). -/
def digestLength : Mode → Nat
  | .sha384 => 48
  | .sha512 => 64

end Sys2Proof.Machine
end

