-- ==== Sys2Proof/Machine/Ops.lean ====
section
/-! DEFINITION. The shared operations over registers and buffers: the buffer write, the counter, the compression of
`BUF` into `H`, the response, taking an error (60 R236) with the recovery beside it (60 R238), and reset (70 R260). -/

namespace Sys2Proof.Machine

/-- `MemWrite`: the bytes `bs` written to `b[a ..]`, one after another (00_scope R12). A loop of one-byte writes to
successive indices is one such write. -/
def memWrite (a : Nat) (bs : List Byte) (b : Block) : Block :=
  tabulate 128 fun j => if a ≤ j.val then bs.getD (j.val - a) b[j] else b[j]

/-- Write bytes into `BUF` (20 R61). -/
def State.bufWrite (a : Nat) (bs : List Byte) (s : State) : State := { s with buf := memWrite a bs s.buf }

/-- Set bytes `BUF[lo .. hi-1]` to zero (43 R197). -/
def State.zeroFill (lo hi : Nat) (s : State) : State := s.bufWrite lo (List.replicate (hi - lo) 0x00#8)

/-- `H[0..7] <- Compress(H[0..7], BUF[0..127])` (42 R160). -/
def State.compressBuf (s : State) : State := { s with h := compress s.h s.buf }

/-- `respond(r)` (00_scope R12): the command ends with response word `r`. -/
def State.respond (r : RespWord) (s : State) : State := { s with responses := s.responses ++ [r] }

/-- TAKING AN ERROR, `raise Err(code)` (60 R236): `ECODE` keeps the first code, `ERR` is set, the response is
`0x80 OR code`; nothing else changes (R237). -/
def State.raiseErr (c : ErrCode) (s : State) : State :=
  { s with ecode := firstError s.err s.ecode c, err := true }.respond (errResponse c)

/-- LEAVING THE FAILED STATE: `ERR` and `ECODE` cleared. There is no return-from-trap command; an accepted INIT and
reset do this (60 R238). -/
def State.clearErr (s : State) : State := { s with err := false, ecode := .noError }

/-- The contents of the elements that reset leaves unspecified (10_state R40). -/
def State.leftover (s : State) : Leftover := { h := s.h, len := s.len, fill := s.fill, buf := s.buf, dout := s.dout }

/-- The reset event (70 R260, 10_state R40): `PHASE`, `MODE`, `ERR`, `ECODE` at their reset values; the unspecified
elements take free values. Whether those depend on what was there before, or on the core, the spec leaves open (70
R262): DESIGN CHOICE, they are drawn from the reset count and the old contents, by one function for all cores (log 4).
A command in progress is lost without a response (log 5). -/
def State.applyReset (s : State) : State :=
  { s with
    h := (Config.leftByReset s.resets s.leftover).h, len := (Config.leftByReset s.resets s.leftover).len,
    fill := (Config.leftByReset s.resets s.leftover).fill, buf := (Config.leftByReset s.resets s.leftover).buf,
    dout := (Config.leftByReset s.resets s.leftover).dout,
    phase := .idle, mode := .sha384, resets := s.resets + 1 }.clearErr

/-- The host puts an input in front of those waiting (log 11). -/
def State.placeInput (x : HostInput) (s : State) : State := { s with inbox := x :: s.inbox }

/-- The host issues inputs after those waiting, in order (20 R75). -/
def State.issue (xs : List HostInput) (s : State) : State := { s with inbox := s.inbox ++ xs }

/-- The host's next input is taken off the list (20 R75). -/
def State.popInput (s : State) : State := { s with inbox := s.inbox.tail }

end Sys2Proof.Machine
end

