-- ==== Sys2Proof/Machine/Padding.lean ====
section
/-! DEFINITION. The bit-length counter and the padding-block formatter (43_length_and_padding), and the output
serialiser and truncator (44 R215 to R217). -/

namespace Sys2Proof.Machine

/-- `LEN <- LEN +L 8` (43 R192). -/
def State.countByte (s : State) : State := { s with len := s.len + 8 }

/-- Step 1, the mark: `0x80` at `BUF[FILL]` (43 R196). -/
def State.padMark (s : State) : State := s.bufWrite s.fill.toNat [0x80#8]

/-- Step 3, the length field: `BUF[112 .. 127] <- bytes_be(16, zext_128(LEN))` (43 R198). -/
def State.writeLength (s : State) : State := s.bufWrite 112 (bytesBE 16 (s.len.setWidth 128).toNat)

/-- Steps 1 to 4 of FINISH (40 R127): with `i = FILL + 1` bytes in the buffer after the mark, a block without room for
the length (`i > 112`) is filled with zeros and compressed first, and the length goes into a second block. -/
def State.padAndCompress (s : State) : State :=
  let i := s.fill.toNat + 1
  if 112 < i then ((s.padMark.zeroFill i 128).compressBuf.zeroFill 0 112).writeLength.compressBuf
  else (s.padMark.zeroFill i 112).writeLength.compressBuf

/-- `DOUT` for final registers `r` in mode `m`: the big-endian bytes of the registers for `k < DLEN(m)`, `0x00` for the
rest (44 R215 to R217). -/
def digestBytes (m : Mode) (r : Regs) : DigestReg :=
  tabulate 64 fun k => if k.val < digestLength m then byteBE 8 (r[k.val / 8]).toNat (k.val % 8) else 0x00#8

/-- Step 5 of FINISH: the digest into `DOUT`, `FILL <- 0`, `PHASE <- DONE` (40 R127). -/
def State.deliver (s : State) : State := { s with fill := 0#7, dout := digestBytes s.mode s.h, phase := .done }

end Sys2Proof.Machine
end

