-- ==== Sys2Proof/Machine/Context.lean ====
section
/-! DEFINITION. The meanings of the three context commands (40_context_commands), of an illegal word and of reset. A rejected command is a next state:
the error of 60 R236 is taken. The checks come before every write, in the order of R120. -/

namespace Sys2Proof.Machine

/-- `do_INIT(m)` without its response (40 R121): a fresh context. `BUF` and `DOUT` are not written. -/
def State.createContext (m : Mode) (s : State) : State :=
  { s with mode := m, h := initialValues m, len := 0#128, fill := 0#7, phase := .active }.clearErr

/-- INIT m (40 R121): accepted in every state; responds OK. -/
def execInit (m : Mode) (s : State) : Host.Outcome State Fault Refusal :=
  .next ((s.createContext m).respond 0x00#8)

/-- After a byte is written: a full buffer is compressed and `FILL` returns to 0; otherwise `FILL` rises by one
(40 R124). -/
def State.advanceFill (s : State) : State :=
  if s.fill = 127#7 then { s.compressBuf with fill := 0#7 } else { s with fill := s.fill + 1 }

/-- `do_UPDB(d)` without its response (40 R124). -/
def State.absorbByte (d : Byte) (s : State) : State := ((s.bufWrite s.fill.toNat [d]).countByte).advanceFill

/-- UPDB d (40 R120, R124): ERR_STATE when the context is not live, ERR_LEN at the counter's limit, else absorb the
byte and respond OK. -/
def execUpdb (d : Byte) (s : State) : Host.Outcome State Fault Refusal :=
  if !s.live then .next (s.raiseErr .badState)
  else if s.lenFull then .next (s.raiseErr .length)
  else .next ((s.absorbByte d).respond 0x00#8)

/-- FINISH (40 R120, R127): ERR_STATE when the context is not live, else pad, compress, deliver the digest and respond
DONE. -/
def execFinish (s : State) : Host.Outcome State Fault Refusal :=
  if !s.live then .next (s.raiseErr .badState)
  else .next (s.padAndCompress.deliver.respond 0x40#8)

/-- An illegal word is rejected with ERR_ILLEGAL whatever the state and whatever makes it illegal (30 R97, 60 R232). -/
def rejectWord (_why : Illegal) (s : State) : Host.Outcome State Fault Refusal := .next (s.raiseErr .illegal)

/-- The reset input, with the command it cuts short if there was one (70 R260; log 5). -/
def takeReset (_lost : Option CmdWord) (s : State) : Host.Outcome State Fault Refusal := .next s.applyReset

/-- With no input waiting the core runs nothing until a command arrives (70 R260; log 2). -/
def awaitInput (s : State) : Host.Outcome State Fault Refusal := .next s

end Sys2Proof.Machine
end

