-- ==== Sys2Proof/Machine/Dispatch.lean ====
section
/-! DEFINITION. One arm per command. -/

namespace Sys2Proof.Machine

def exec (i : Instr) (s : State) : Host.Outcome State Fault Refusal :=
  match i with
  | .init m => Sys2Proof.Machine.execInit m s
  | .updb d => Sys2Proof.Machine.execUpdb d s
  | .finish => Sys2Proof.Machine.execFinish s

end Sys2Proof.Machine
end

