-- ==== Sys2Proof/Machine/Step.lean ====
section
/-! DEFINITION. One step of the core (40 R120): take the host's next input, decode it, run it. -/

namespace Sys2Proof.Machine

/-- The core answers one command word (40 R120): decode, and either run the command or reject the word. -/
def stepCommand (w : CmdWord) (s : State) : Host.Outcome State Fault Refusal :=
  match decode w with
  | .command i => exec i s
  | .illegal why => rejectWord why s

/-- One step: the host's oldest input is taken and answered (20 R75); with none waiting the core waits. -/
def step (s : State) : Host.Outcome State Fault Refusal :=
  match s.inbox with
  | [] => awaitInput s
  | .command w :: _ => stepCommand w s.popInput
  | .reset lost :: _ => takeReset lost s.popInput

/-- `s` with the command word `w` as the host's next input, where `step` takes its next command (log 11, log 12). -/
def State.withFetchWord (s : State) (nbits w : Nat) : State :=
  s.placeInput (.command (BitVec.ofNat 16 (w % 2 ^ nbits)))

end Sys2Proof.Machine
end

