-- ==== Sys2Proof/Machine/Run.lean ====
section
/-! DEFINITION. A command sequence: the state after it is the left fold of the step function over it (20 R75). -/

namespace Sys2Proof.Machine

/-- The commands `ws` issued one at a time, each answered before the next (20 R75, 70 R265). -/
def runCommands : List CmdWord → State → Host.Outcome State Fault Refusal
  | [], s => .next s
  | w :: ws, s =>
    match stepCommand w s with
    | .next t => runCommands ws t
    | .fault r => .fault r
    | .refused r => .refused r

end Sys2Proof.Machine
end

