-- ==== Sys2Proof/Machine/Pseudo.lean ====
section
/-! DEFINITION. The pseudo-instructions: the source's three operations as command sequences (30_encoding R102 to
R106). -/

namespace Sys2Proof.Machine

/-- `create(mode)` is the one command INIT (R102). -/
def createCmds (m : Mode) : List CmdWord := [encode (.init m)]

/-- `update(data)` is one UPDB per byte, in order; no command for the empty sequence (R106). -/
def updateCmds (data : List Byte) : List CmdWord := data.map fun d => encode (.updb d)

/-- `finish()` is the one command FINISH (R103). -/
def finishCmds : List CmdWord := [encode .finish]

/-- `hash(mode, data)`: INIT, then `update(data)`, then FINISH (R105). -/
def hashCmds (m : Mode) (data : List Byte) : List CmdWord := createCmds m ++ updateCmds data ++ finishCmds

end Sys2Proof.Machine
end

