-- ==== Sys2Proof/Machine/Assembler.lean ====
section
/-! DEFINITION. The assembler's lines (30_encoding R101, R104): a line of text to the command words it stands for. Text
is a list of characters (log 13). -/

namespace Sys2Proof.Machine

/-- A space or a tab. -/
def isBlank (c : Char) : Bool := c.toNat == 32 || c.toNat == 9

/-- The single quote. -/
def singleQuote : Char := Char.ofNat 39

/-- The double quote. -/
def doubleQuote : Char := Char.ofNat 34

/-- A printable ASCII character (R101). -/
def isPrintable (c : Char) : Bool := decide (32 ≤ c.toNat) && decide (c.toNat ≤ 126)

/-- Leading blanks dropped. -/
def skipBlanks (cs : List Char) : List Char := cs.dropWhile isBlank

/-- Nothing but blanks and a comment is left: "A semicolon starts a comment that runs to the end of the line" (R101). -/
def lineEnds (cs : List Char) : Bool :=
  match skipBlanks cs with
  | [] => true
  | c :: _ => c == ';'

/-- The text after the keyword `kw`, if the line begins with it. -/
def afterWord : List Char → List Char → Option (List Char)
  | [], cs => some cs
  | _ :: _, [] => none
  | k :: kw, c :: cs => if k = c then afterWord kw cs else none

/-- The text after the mnemonic `kw` and at least one blank. -/
def operandOf (kw cs : List Char) : Option (List Char) :=
  match afterWord kw cs with
  | some (c :: rest) => if isBlank c then some (skipBlanks rest) else none
  | _ => none

/-- The value of a decimal digit. -/
def decDigit (c : Char) : Option Nat :=
  if 48 ≤ c.toNat ∧ c.toNat ≤ 57 then some (c.toNat - 48) else none

/-- The value of a hexadecimal digit, either case. -/
def hexDigit (c : Char) : Option Nat :=
  if 48 ≤ c.toNat ∧ c.toNat ≤ 57 then some (c.toNat - 48)
  else if 65 ≤ c.toNat ∧ c.toNat ≤ 70 then some (c.toNat - 55)
  else if 97 ≤ c.toNat ∧ c.toNat ≤ 102 then some (c.toNat - 87)
  else none

/-- The longest run of digits: how many, their value in the given base from `acc`, and the text after them. -/
def takeDigits (digit : Char → Option Nat) (base : Nat) : Nat → Nat → List Char → Nat × Nat × List Char
  | n, acc, [] => (n, acc, [])
  | n, acc, c :: cs =>
    match digit c with
    | some d => takeDigits digit base (n + 1) (acc * base + d) cs
    | none => (n, acc, c :: cs)

/-- A decimal number. -/
def parseDecimal (cs : List Char) : Option (Nat × List Char) :=
  match takeDigits decDigit 10 0 0 cs with
  | (0, _, _) => none
  | (_, v, rest) => some (v, rest)

/-- A number: `0x` and one to `maxHex` hexadecimal digits, or a decimal number, below `bound`. -/
def parseNumber (maxHex bound : Nat) (cs : List Char) : Option (Nat × List Char) :=
  match afterWord ['0', 'x'] cs with
  | some hs =>
    match takeDigits hexDigit 16 0 0 hs with
    | (n, v, rest) => if 0 < n ∧ n ≤ maxHex then some (v, rest) else none
  | none =>
    match parseDecimal cs with
    | some (v, rest) => if v < bound then some (v, rest) else none
    | none => none

/-- One printable character in single quotes (R101). -/
def parseQuoted : List Char → Option (Nat × List Char)
  | q :: c :: q' :: rest =>
    if q = singleQuote ∧ q' = singleQuote ∧ isPrintable c then some (c.toNat, rest) else none
  | _ => none

/-- `<byte>`: a number of at most two hexadecimal digits or below 256, or a quoted character (R101). -/
def parseByte (cs : List Char) : Option (Nat × List Char) :=
  match parseQuoted cs with
  | some p => some p
  | none => parseNumber 2 256 cs

/-- `<text>` up to the closing double quote (R104). Which characters it may hold the spec leaves open. DESIGN CHOICE:
printable ASCII characters, as R101 has for a quoted character, and the first double quote ends it (log 13). -/
def parseText : List Char → Option (List Char × List Char)
  | [] => none
  | c :: cs =>
    if c = doubleQuote then some ([], cs)
    else if isPrintable c then
      match parseText cs with
      | some (text, rest) => some (c :: text, rest)
      | none => none
    else none

/-- The byte of a character: its ASCII code (R101, R104). -/
def charByte (c : Char) : Byte := BitVec.ofNat 8 c.toNat

/-- The words `ws`, if nothing but blanks and a comment follows. -/
def closeLine (ws : List CmdWord) (rest : List Char) : Option (List CmdWord) := if lineEnds rest then some ws else none

/-- `SHA384` or `SHA512`, then the end of the line. -/
def assembleInit (cs : List Char) : Option (List CmdWord) :=
  match afterWord ['S', 'H', 'A', '3', '8', '4'] cs with
  | some rest => closeLine (createCmds .sha384) rest
  | none =>
    match afterWord ['S', 'H', 'A', '5', '1', '2'] cs with
    | some rest => closeLine (createCmds .sha512) rest
    | none => none

/-- `UPDB <byte>`. -/
def assembleUpdb (cs : List Char) : Option (List CmdWord) :=
  match parseByte cs with
  | some (v, rest) => closeLine (updateCmds [BitVec.ofNat 8 v]) rest
  | none => none

/-- `.word <w>`: the 16-bit word as given, well-formed or not. -/
def assembleWord (cs : List Char) : Option (List CmdWord) :=
  match parseNumber 4 65536 cs with
  | some (v, rest) => closeLine [BitVec.ofNat 16 v] rest
  | none => none

/-- `n` copies of a character: the text after the character is `* n` (R104). -/
def assembleCopies (v : Nat) (cs : List Char) : Option (List CmdWord) :=
  match afterWord ['*'] (skipBlanks cs) with
  | some rest =>
    match parseDecimal (skipBlanks rest) with
    | some (n, rest) => closeLine (updateCmds (List.replicate n (BitVec.ofNat 8 v))) rest
    | none => none
  | none => none

/-- `UPDATE "<text>"` or `UPDATE 'c' * n` (R104). -/
def assembleUpdate (cs : List Char) : Option (List CmdWord) :=
  match afterWord [doubleQuote] cs with
  | some rest =>
    match parseText rest with
    | some (text, rest) => closeLine (updateCmds (text.map charByte)) rest
    | none => none
  | none =>
    match parseQuoted cs with
    | some (v, rest) => assembleCopies v rest
    | none => none

/-- The command words of one line; `none` where the line is not in the format of R101 and R104. Blank lines and comments
give no word. -/
def assembleLine (line : List Char) : Option (List CmdWord) :=
  let cs := skipBlanks line
  if lineEnds cs then some []
  else
    match operandOf ['I', 'N', 'I', 'T'] cs with
    | some rest => assembleInit rest
    | none =>
      match operandOf ['U', 'P', 'D', 'B'] cs with
      | some rest => assembleUpdb rest
      | none =>
        match operandOf ['U', 'P', 'D', 'A', 'T', 'E'] cs with
        | some rest => assembleUpdate rest
        | none =>
          match operandOf ['.', 'w', 'o', 'r', 'd'] cs with
          | some rest => assembleWord rest
          | none =>
            match afterWord ['F', 'I', 'N', 'I', 'S', 'H'] cs with
            | some rest => closeLine finishCmds rest
            | none => none

/-- The command words of a program, one line after another (R101). -/
def assemble : List (List Char) → Option (List CmdWord)
  | [] => some []
  | line :: lines =>
    match assembleLine line, assemble lines with
    | some ws, some rest => some (ws ++ rest)
    | _, _ => none

end Sys2Proof.Machine
end

