-- ==== Sys2Proof/Machine/System.lean ====
section
/-! DEFINITION. Several cores (60 R250, 20 R80): each has its own state, they share only the read-only tables, and no
command of one reads or writes any state of another (log 14). -/

namespace Sys2Proof.Machine

/-- A system of cores. -/
abbrev System := List State

/-- Core `k` takes one step; a number that names no core changes nothing. -/
def stepCore (k : Nat) (sys : System) : Host.Outcome System Fault Refusal :=
  match sys[k]? with
  | none => .next sys
  | some s =>
    match step s with
    | .next t => .next (sys.set k t)
    | .fault r => .fault r
    | .refused r => .refused r

end Sys2Proof.Machine
end

