-- ==== Sys2Proof/Machine/Window.lean ====
section
/-! DEFINITION. The equivalent form that an implementation may use in place of the 80-word schedule (41 R147): a window
of 16 words, and a round written as assignments in order (42 R177). No meaning calls it: it is the other side of an
equivalence. -/

namespace Sys2Proof.Machine

/-- `R[t mod 16]` replaced before round `t`, for `t >= 16` (41 R147). -/
def windowAdvance (t : Nat) (r : Vector Word 16) : Vector Word 16 :=
  if 16 ≤ t then
    r.set (t % 16) (smallSigma1 r[(t - 2) % 16] + r[(t - 7) % 16] + smallSigma0 r[(t - 15) % 16] + r[t % 16])
  else r

/-- A round as assignments in order, `T1` and `T2` first: `h=g; g=f; f=e; e=d+T1; d=c; c=b; b=a; a=T1+T2` (42 R177). -/
def sequentialRound (k w : Word) (x : Working) : Working :=
  let t1 := x.h + bigSigma1 x.e + ch x.e x.f x.g + k + w
  let t2 := bigSigma0 x.a + maj x.a x.b x.c
  let x := { x with h := x.g }
  let x := { x with g := x.f }
  let x := { x with f := x.e }
  let x := { x with e := x.d + t1 }
  let x := { x with d := x.c }
  let x := { x with c := x.b }
  let x := { x with b := x.a }
  { x with a := t1 + t2 }

/-- The window and the working registers after rounds `0 .. n-1` (41 R147). -/
def windowRounds (b : Block) (x : Working) : (n : Nat) → n ≤ 80 → Vector Word 16 × Working
  | 0, _ => (blockWords b, x)
  | n + 1, hn =>
    let p := windowRounds b x n (by omega)
    let r := windowAdvance n p.1
    (r, sequentialRound roundConstants[n] r[n % 16] p.2)

/-- The compression step in window form (41 R147, 42 R175). -/
def windowCompress (r : Regs) (b : Block) : Regs :=
  feedForward r (windowRounds b (Working.load r) 80 (by omega)).2

end Sys2Proof.Machine
end

