-- ==== Sys2Proof/Machine/Reference.lean ====
section
/-! DEFINITION. What a whole context computes, as a function of the mode and the message alone (40 R129). No meaning
calls it: it is the other side of the statements about whole contexts. -/

namespace Sys2Proof.Machine

/-- The number of zero bytes of padding: `(111 - n) mod 128` (40 R128, R129). -/
def zeroCount (n : Nat) : Nat := (((111 : Int) - n) % 128).toNat

/-- `P = msg ++ [0x80] ++ [0x00] * ((111 - n) mod 128) ++ bytes_be(16, 8 * n)` (40 R129). -/
def paddedMessage (msg : List Byte) : List Byte :=
  msg ++ [0x80#8] ++ List.replicate (zeroCount msg.length) 0x00#8 ++ bytesBE 16 (8 * msg.length)

/-- The number of blocks, `floor((n + 17 + 127) / 128)` (40 R129). -/
def blockCount (n : Nat) : Nat := (n + 17 + 127) / 128

/-- Block `k` of a byte sequence: `p[128*k .. 128*k + 127]` (40 R129). -/
def blockAt (p : List Byte) (k : Nat) : Block := tabulate 128 fun j => p.getD (128 * k + j.val) 0x00#8

/-- `H_k`: the compression step applied to the first `k` blocks of `p` in order, from `r` (40 R129). -/
def hashBlocks (r : Regs) (p : List Byte) : Nat → Regs
  | 0 => r
  | k + 1 => compress (hashBlocks r p k) (blockAt p k)

/-- What `DOUT` holds after a context of mode `m` that absorbed `msg` is finished (40 R129). -/
def digestOf (m : Mode) (msg : List Byte) : DigestReg :=
  digestBytes m (hashBlocks (initialValues m) (paddedMessage msg) (blockCount msg.length))

end Sys2Proof.Machine
end

