-- ==== Sys2Proof/Machine/View.lean ====
section
/-! DEFINITION. What the host can read, at all times and with no side effect (10_state R30, R31, R37; log 16). -/

namespace Sys2Proof.Machine

/-- `STATUS = zext_8(PHASE) + 4*MODE + 8*ERR + 16*ECODE` (10_state R30). -/
def State.status (s : State) : BitVec 8 :=
  s.phase.code.setWidth 8 + 4#8 * s.mode.code.setWidth 8 + 8#8 * (BitVec.ofBool s.err).setWidth 8
    + 16#8 * s.ecode.code.setWidth 8

/-- The host reads byte `j` of `DOUT` (10_state R31). -/
def State.readDout (s : State) (j : Fin 64) : Byte := s.dout[j]

/-- The digest the host may take: `DOUT[0 .. DLEN(MODE)-1]` exactly when `PHASE = DONE` (10_state R31, 30 R103,
70 R267; log 19). -/
def State.digestRead (s : State) : Option (List Byte) :=
  if s.phase = .done then some (s.dout.toList.take (digestLength s.mode)) else none

/-- The `E` bit of a response: the command was rejected (30 R100). -/
def rejected (r : RespWord) : Bool := r.getLsbD 7

end Sys2Proof.Machine
end

