-- ==== Sys2Proof/Safety.lean ====
section
/-! DEFINITION. What a good state is: the invariants of 10_state, in the terms the statements use. -/

namespace Sys2Proof.Machine

/-- `ECODE = 0` exactly when `ERR = 0` (10_state R29). -/
def State.ErrAgrees (s : State) : Prop := s.ecode = .noError ↔ s.err = false

/-- The context has absorbed exactly `msg` (10_state R38, clauses (a) to (d)). -/
structure State.Absorbed (msg : List Byte) (s : State) : Prop where
  /-- (a) the counter is the message's length in bits. -/
  len_eq : s.len.toNat = 8 * msg.length
  /-- (a) the length fits the counter. -/
  len_lt : msg.length < 2 ^ (Config.lenw - 3)
  /-- (b) the fill count. -/
  fill_eq : s.fill.toNat = msg.length % 128
  /-- (c) the pending bytes. -/
  pending : ∀ j : Fin 128, j.val < s.fill.toNat → msg[128 * (msg.length / 128) + j.val]? = some s.buf[j]
  /-- (d) the registers: the complete blocks compressed from `IV(MODE)`. -/
  regs_eq : s.h = hashBlocks (initialValues s.mode) msg (msg.length / 128)

/-- The whole-machine invariant: a context in ACTIVE has absorbed some message (10_state R38), and in DONE the register
`DOUT` holds the digest of some message in the context's mode (10_state R31). -/
structure State.ContextInv (s : State) : Prop where
  active : s.phase = .active → ∃ msg, s.Absorbed msg
  done : s.phase = .done → ∃ msg : List Byte, msg.length < 2 ^ (Config.lenw - 3) ∧ s.dout = digestOf s.mode msg

end Sys2Proof.Machine
end

