-- ==== Sys2Proof/Certificates/Slice0/Obligations.lean ====
section
/-! DEFINITION. The statements for the provers. A state written `{ s with … }` says that every field not named is
unchanged. -/

open Sys2Proof Sys2Proof.Machine

/-! ## Encoding -/

/-- 95 T1: sample words of the three commands and of each kind of illegal word. -/
def Obligations.SampleWordsDecode : Prop :=
  decode 0x1000#16 = .command (.init .sha384) ∧ decode 0x1001#16 = .command (.init .sha512) ∧
  decode 0x2000#16 = .command (.updb 0x00#8) ∧ decode 0x2061#16 = .command (.updb 0x61#8) ∧
  decode 0x2080#16 = .command (.updb 0x80#8) ∧ decode 0x20FF#16 = .command (.updb 0xFF#8) ∧
  decode 0x3000#16 = .command .finish ∧
  ∀ w ∈ [0x1002#16, 0x1080#16, 0x1101#16, 0x2161#16, 0x3001#16, 0x3100#16, 0x0000#16, 0x4000#16, 0xFFFF#16],
    ∃ why, decode w = .illegal why

/-- R98: the three tests of the decoder in any order, the encoder, and that each inverts the other. -/
def Obligations.DecodeAndEncodeInvert : Prop :=
  (∀ w : CmdWord,
    (w &&& 0xFFFE#16 = 0x1000#16 → decode w = .command (.init (if w.getLsbD 0 then .sha512 else .sha384))) ∧
    (w &&& 0xFF00#16 = 0x2000#16 → decode w = .command (.updb (w.setWidth 8))) ∧
    (w = 0x3000#16 → decode w = .command .finish) ∧
    (w &&& 0xFFFE#16 ≠ 0x1000#16 → w &&& 0xFF00#16 ≠ 0x2000#16 → w ≠ 0x3000#16 → ∃ why, decode w = .illegal why)) ∧
  (∀ m : Mode, encode (.init m) = 0x1000#16 + (if m = .sha512 then 1#16 else 0#16)) ∧
  (∀ d : Byte, encode (.updb d) = 0x2000#16 + d.setWidth 16) ∧
  encode .finish = 0x3000#16 ∧
  (∀ i : Instr, decode (encode i) = .command i) ∧
  (∀ (w : CmdWord) (i : Instr), decode w = .command i → encode i = w)

/-- R97: the 259 well-formed words, and that every other word is rejected with ERR_ILLEGAL in every state. -/
def Obligations.WellFormedWordsAreExactlyThese : Prop :=
  (∀ w : CmdWord, wellFormedWord w = true ↔
    (w &&& 0xFFFE#16 = 0x1000#16 ∨ w &&& 0xFF00#16 = 0x2000#16 ∨ w = 0x3000#16)) ∧
  (∀ w : CmdWord, wellFormedWord w = true ↔
    (w = 0x1000#16 ∨ w = 0x1001#16 ∨ (0x2000 ≤ w.toNat ∧ w.toNat ≤ 0x20FF) ∨ w = 0x3000#16)) ∧
  ((List.range 65536).filter fun n => wellFormedWord (BitVec.ofNat 16 n)).length = 259 ∧
  (∀ w : CmdWord, wellFormedWord w = true ↔ ∃ i, decode w = .command i) ∧
  (∀ (w : CmdWord) (s : State), wellFormedWord w = false →
    stepCommand w s = .next { s with
      err := true, ecode := (if s.err then s.ecode else .illegal),
      responses := s.responses ++ [0x81#8] })

/-- R232: which words are illegal, by their fields, and what every one of them does when it is the next command. -/
def Obligations.IllegalWordsAreRejected : Prop :=
  (∀ w : CmdWord, (∃ why, decode w = .illegal why) ↔
    ((w.extractLsb' 12 4 ≠ 1#4 ∧ w.extractLsb' 12 4 ≠ 2#4 ∧ w.extractLsb' 12 4 ≠ 3#4) ∨
      w.extractLsb' 8 4 ≠ 0#4 ∨
      (w.extractLsb' 12 4 = 1#4 ∧ w.extractLsb' 1 7 ≠ 0#7) ∨
      (w.extractLsb' 12 4 = 3#4 ∧ w.extractLsb' 0 8 ≠ 0#8))) ∧
  (∀ (s : State) (w : CmdWord) (rest : List HostInput) (why : Illegal),
    s.inbox = .command w :: rest → decode w = .illegal why →
    step s = .next { s with
      inbox := rest, err := true, ecode := (if s.err then s.ecode else .illegal),
      responses := s.responses ++ [0x81#8] })

/-! ## The step -/

/-- When the host's next input is a command word that decodes to `i`, a step takes it off the list and runs `i`. -/
def Obligations.StepRunsTheDecodedCommand : Prop :=
  ∀ (s : State) (w : CmdWord) (rest : List HostInput) (i : Instr),
    s.inbox = .command w :: rest → decode w = .command i → step s = exec i { s with inbox := rest }

/-- Every state has a next state (40 section 1: "total and deterministic"), and a step takes exactly the oldest input
(20 section 6, the order of issue). That the inputs wait in a list of State is the model's choice (log 1), and that a
core with no input waiting keeps its state is its reading (log 2). -/
def Obligations.StepAlwaysCompletes : Prop :=
  (∀ s : State, ∃ t, step s = .next t ∧ t.inbox = s.inbox.tail) ∧ (∀ s : State, s.inbox = [] → step s = .next s)

/-- 20 section 6: running the core over a list of commands is the left fold of the one-command step over it. That the
commands wait in a list of State is the model's choice (log 1). -/
def Obligations.InboxRunIsTheFoldOfCommands : Prop :=
  ∀ (s : State) (ws : List CmdWord),
    Sys2Proof.core.run ws.length { s with inbox := ws.map .command } = runCommands ws { s with inbox := [] }

/-- 70 section 1: a reset event gives the reset values, without a response even for a command in progress, and is the
only way to reach IDLE. That a reset is an input taken between commands is the model's reading (log 5). -/
def Obligations.ResetEventReachesIdle : Prop :=
  (∀ (s : State) (lost : Option CmdWord) (rest : List HostInput), s.inbox = .reset lost :: rest →
    ∃ t, step s = .next t ∧ t.phase = .idle ∧ t.mode = .sha384 ∧ t.err = false ∧ t.ecode = .noError ∧
      t.status = 0x00#8 ∧ t.inbox = rest ∧ t.responses = s.responses) ∧
  (∀ s t : State, step s = .next t → s.phase ≠ .idle → t.phase = .idle →
    ∃ lost rest, s.inbox = .reset lost :: rest)

/-- The control fields of the state after reset (10_state section 13). -/
def Obligations.ResetStateControlFields : Prop :=
  State.reset.phase = .idle ∧ State.reset.mode = .sha384 ∧ State.reset.err = false ∧
  State.reset.ecode = .noError ∧ State.reset.status = 0x00#8

/-- R30: the fields of the status word. -/
def Obligations.StatusShowsTheFields : Prop :=
  (∀ s : State,
    s.status.extractLsb' 0 2 = (match s.phase with | .idle => 0#2 | .active => 1#2 | .done => 2#2) ∧
    s.status.getLsbD 2 = (s.mode == .sha512) ∧
    s.status.getLsbD 3 = s.err ∧
    s.status.extractLsb' 4 2 =
      (match s.ecode with | .noError => 0#2 | .illegal => 1#2 | .badState => 2#2 | .length => 3#2) ∧
    s.status.extractLsb' 6 2 = 0#2)

/-- R100, R120, R235: every command gets exactly one response, one of five, and which one it is by the order of the
checks. -/
def Obligations.EveryCommandGetsItsResponse : Prop :=
  ∀ (w : CmdWord) (s : State), ∃ t r, stepCommand w s = .next t ∧ t.responses = s.responses ++ [r] ∧
    r = (match decode w with
      | .illegal _ => 0x81#8
      | .command (.init _) => 0x00#8
      | .command (.updb _) =>
        if s.phase ≠ .active ∨ s.err = true then 0x82#8
        else if 2 ^ 128 ≤ s.len.toNat + 8 then 0x83#8 else 0x00#8
      | .command .finish => if s.phase ≠ .active ∨ s.err = true then 0x82#8 else 0x40#8) ∧
    r ∈ [0x00#8, 0x40#8, 0x81#8, 0x82#8, 0x83#8]

/-! ## INIT -/

/-- R121: INIT in every state, and its example. The tables are written out. -/
def Obligations.InitCreatesContext : Prop :=
  (∀ (m : Mode) (s : State), exec (.init m) s = .next { s with
    mode := m,
    h := (match m with
      | .sha384 => #v[0xcbbb9d5dc1059ed8, 0x629a292a367cd507, 0x9159015a3070dd17, 0x152fecd8f70e5939,
                      0x67332667ffc00b31, 0x8eb44a8768581511, 0xdb0c2e0d64f98fa7, 0x47b5481dbefa4fa4]
      | .sha512 => #v[0x6a09e667f3bcc908, 0xbb67ae8584caa73b, 0x3c6ef372fe94f82b, 0xa54ff53a5f1d36f1,
                      0x510e527fade682d1, 0x9b05688c2b3e6c1f, 0x1f83d9abfb41bd6b, 0x5be0cd19137e2179]),
    len := 0#128, fill := 0#7, phase := .active, err := false, ecode := .noError,
    responses := s.responses ++ [0x00#8] }) ∧
  (∃ t, stepCommand 0x1001#16 State.reset = .next t ∧ t.responses = [0x00#8] ∧ t.status = 0x05#8 ∧
    t.h[0] = 0x6a09e667f3bcc908#64 ∧ t.len = 0#128 ∧ t.fill = 0#7)

/-! ## UPDB -/

/-- R124: UPDB on a live context below the counter's limit, in mid block and at the block's last byte; and its two
rejections. -/
def Obligations.UpdbAbsorbsOneByte : Prop :=
  ∀ (d : Byte) (s : State),
    (s.phase = .active → s.err = false → s.len.toNat + 8 < 2 ^ 128 → s.fill ≠ 127#7 →
      exec (.updb d) s = .next { s with
        buf := s.buf.set s.fill.toNat d s.fill.isLt, len := s.len + 8#128, fill := s.fill + 1#7,
        responses := s.responses ++ [0x00#8] }) ∧
    (s.phase = .active → s.err = false → s.len.toNat + 8 < 2 ^ 128 → s.fill = 127#7 →
      exec (.updb d) s = .next { s with
        buf := s.buf.set 127 d, len := s.len + 8#128, fill := 0#7, h := compress s.h (s.buf.set 127 d),
        responses := s.responses ++ [0x00#8] }) ∧
    (s.phase ≠ .active ∨ s.err = true →
      exec (.updb d) s = .next { s with
        err := true, ecode := (if s.err then s.ecode else .badState),
        responses := s.responses ++ [0x82#8] }) ∧
    (s.phase = .active → s.err = false → 2 ^ 128 ≤ s.len.toNat + 8 →
      exec (.updb d) s = .next { s with err := true, ecode := .length, responses := s.responses ++ [0x83#8] })

/-- R195: the counter's limit. A UPDB at it changes the error state alone; for a counter that is a multiple of 8 the
limit is exactly `2^128 - 8`; and a live context takes another byte exactly until it has absorbed `2^125 - 1` of them. -/
def Obligations.CounterLimitRejectsUpdb : Prop :=
  (∀ (d : Byte) (s : State), s.phase = .active → s.err = false → s.len.toNat + 8 ≥ 2 ^ 128 →
    exec (.updb d) s = .next { s with err := true, ecode := .length, responses := s.responses ++ [0x83#8] }) ∧
  (∀ s : State, 8 ∣ s.len.toNat → (s.len.toNat + 8 ≥ 2 ^ 128 ↔ s.len.toNat = 2 ^ 128 - 8)) ∧
  (∀ (msg : List Byte) (d : Byte) (s : State), s.phase = .active → s.err = false → s.Absorbed msg →
    ∃ t, exec (.updb d) s = .next t ∧
      (msg.length = 2 ^ 125 - 1 → t = { s with err := true, ecode := .length, responses := s.responses ++ [0x83#8] }) ∧
      (msg.length ≠ 2 ^ 125 - 1 → t.err = false ∧ t.len.toNat = 8 * (msg.length + 1) ∧
        t.responses = s.responses ++ [0x00#8]))

/-- R22, R214: INIT reads no old `MODE`, and its operand selects `H` and `MODE` and nothing else; UPDB does not read
`MODE`; FINISH reads it for the output alone, whose first 48 bytes do not depend on it. -/
def Obligations.ModeSelectsOnlyTablesAndLength : Prop :=
  ∀ (m : Mode) (s t : State),
    (∀ m₁ m₂ : Mode, exec (.init m₁) s = .next t →
      exec (.init m₁) { s with mode := m } = .next t ∧
      exec (.init m₂) s = .next { t with mode := m₂, h := initialValues m₂ }) ∧
    (∀ d : Byte, exec (.updb d) s = .next t → exec (.updb d) { s with mode := m } = .next { t with mode := m }) ∧
    (exec .finish s = .next t → ∃ t', exec .finish { s with mode := m } = .next t' ∧
      t' = { t with mode := m, dout := t'.dout } ∧ ∀ j : Fin 64, j.val < 48 → t'.dout[j] = t.dout[j])

/-! ## FINISH -/

/-- R127: FINISH on a live context, and its rejection. `b` is the padded block where the length fits in the current
block; `b1` and `b2` are the two blocks where it does not. -/
def Obligations.FinishPadsAndDelivers : Prop :=
  ∀ s : State,
    (s.phase = .active → s.err = false → s.fill.toNat ≤ 111 → ∀ b : Block,
      (∀ j : Fin 128, b[j] =
        if j.val < s.fill.toNat then s.buf[j] else if j.val = s.fill.toNat then 0x80#8
        else if j.val < 112 then 0x00#8 else s.len.extractLsb' (8 * (127 - j.val)) 8) →
      ∃ t, exec .finish s = .next t ∧
        t = { s with
          buf := b, h := compress s.h b, fill := 0#7, phase := .done, dout := t.dout,
          responses := s.responses ++ [0x40#8] } ∧
        ∀ i j : Fin 8, t.dout[8 * i.val + j.val] =
          if 8 * i.val + j.val < (if s.mode = .sha512 then 64 else 48) then t.h[i].extractLsb' (8 * (7 - j.val)) 8
          else 0x00#8) ∧
    (s.phase = .active → s.err = false → 112 ≤ s.fill.toNat → ∀ b1 b2 : Block,
      (∀ j : Fin 128, b1[j] =
        if j.val < s.fill.toNat then s.buf[j] else if j.val = s.fill.toNat then 0x80#8 else 0x00#8) →
      (∀ j : Fin 128, b2[j] = if j.val < 112 then 0x00#8 else s.len.extractLsb' (8 * (127 - j.val)) 8) →
      ∃ t, exec .finish s = .next t ∧
        t = { s with
          buf := b2, h := compress (compress s.h b1) b2, fill := 0#7, phase := .done, dout := t.dout,
          responses := s.responses ++ [0x40#8] } ∧
        ∀ i j : Fin 8, t.dout[8 * i.val + j.val] =
          if 8 * i.val + j.val < (if s.mode = .sha512 then 64 else 48) then t.h[i].extractLsb' (8 * (7 - j.val)) 8
          else 0x00#8) ∧
    (s.phase ≠ .active ∨ s.err = true →
      exec .finish s = .next { s with
        err := true, ecode := (if s.err then s.ecode else .badState),
        responses := s.responses ++ [0x82#8] })

/-- R233: UPDB and FINISH on a context that is not live are rejected with ERR_STATE and change the error state
alone; INIT never is. -/
def Obligations.CommandsOnADeadContextAreRejected : Prop :=
  (∀ s : State, s.phase ≠ .active ∨ s.err = true →
    (∀ d : Byte, exec (.updb d) s = .next { s with
      err := true, ecode := (if s.err then s.ecode else .badState),
      responses := s.responses ++ [0x82#8] }) ∧
    exec .finish s = .next { s with
      err := true, ecode := (if s.err then s.ecode else .badState),
      responses := s.responses ++ [0x82#8] }) ∧
  (∀ (m : Mode) (s : State), ∃ t, exec (.init m) s = .next t ∧ t.responses = s.responses ++ [0x00#8])

/-- R215, R217: the serialised registers, byte by byte and bit by bit, cut at the digest length; and that FINISH writes
them to `DOUT` after its last compression step. -/
def Obligations.DigestBytesAreBigEndianAndCut : Prop :=
  (∀ (m : Mode) (r : Regs) (i j : Fin 8),
    (((List.finRange 8).flatMap fun i => bytesBE 8 r[i].toNat)[8 * i.val + j.val]? =
      some (r[i].extractLsb' (56 - 8 * j.val) 8)) ∧
    (digestBytes m r)[8 * i.val + j.val] =
      if 8 * i.val + j.val < (match m with | .sha384 => 48 | .sha512 => 64) then r[i].extractLsb' (56 - 8 * j.val) 8
      else 0x00#8) ∧
  (∀ s t : State, s.phase = .active → s.err = false → exec .finish s = .next t → t.dout = digestBytes s.mode t.h)

/-- R65: after an accepted FINISH the last 16 bytes of the block hold the counter, most significant byte first, and
read back as words are its high and low halves. -/
def Obligations.LengthFieldHoldsTheCounter : Prop :=
  ∀ s t : State, s.phase = .active → s.err = false → exec .finish s = .next t →
    (∀ j : Fin 16, t.buf[112 + j.val] = s.len.extractLsb' (8 * (15 - j.val)) 8) ∧
    (blockWords t.buf)[14] = s.len.extractLsb' 64 64 ∧ (blockWords t.buf)[15] = s.len.extractLsb' 0 64 ∧ t.len = s.len

/-! ## Frames and whole-machine rules -/

/-- What the three commands leave unchanged, byte by byte (10_state section 12). An accepted UPDB stores one byte, at
index `FILL` of the state it runs in; an accepted FINISH stores the bytes from `FILL` on, or all of them when it needs
two blocks; a rejected command stores nothing. -/
def Obligations.CommandFrames : Prop :=
  ∀ s t : State,
    (∀ m : Mode, exec (.init m) s = .next t →
      (∀ j : Fin 128, t.buf[j] = s.buf[j]) ∧ (∀ j : Fin 64, t.dout[j] = s.dout[j]) ∧
      t.inbox = s.inbox ∧ t.resets = s.resets) ∧
    (∀ d : Byte, exec (.updb d) s = .next t →
      (∀ j : Fin 128, j.val ≠ s.fill.toNat → t.buf[j] = s.buf[j]) ∧
      (s.fill ≠ 127#7 → ∀ i : Fin 8, t.h[i] = s.h[i]) ∧
      (s.phase = .active → s.err = false → s.len.toNat + 8 < 2 ^ 128 → t.err = s.err ∧ t.ecode = s.ecode) ∧
      (s.phase ≠ .active ∨ s.err = true ∨ 2 ^ 128 ≤ s.len.toNat + 8 →
        (∀ j : Fin 128, t.buf[j] = s.buf[j]) ∧ (∀ i : Fin 8, t.h[i] = s.h[i]) ∧ t.len = s.len ∧ t.fill = s.fill) ∧
      t.mode = s.mode ∧ t.phase = s.phase ∧ (∀ j : Fin 64, t.dout[j] = s.dout[j]) ∧
      t.inbox = s.inbox ∧ t.resets = s.resets) ∧
    (exec .finish s = .next t →
      (s.fill.toNat ≤ 111 → ∀ j : Fin 128, j.val < s.fill.toNat → t.buf[j] = s.buf[j]) ∧
      (s.phase = .active → s.err = false → t.err = s.err ∧ t.ecode = s.ecode) ∧
      (s.phase ≠ .active ∨ s.err = true →
        (∀ j : Fin 128, t.buf[j] = s.buf[j]) ∧ (∀ j : Fin 64, t.dout[j] = s.dout[j]) ∧
        (∀ i : Fin 8, t.h[i] = s.h[i]) ∧ t.fill = s.fill ∧ t.phase = s.phase) ∧
      t.mode = s.mode ∧ t.len = s.len ∧ t.inbox = s.inbox ∧ t.resets = s.resets)

/-- R236, R237: a command answered with bit 7 set writes `ERR`, `ECODE` and its response, and nothing else. -/
def Obligations.RejectedCommandsArePrecise : Prop :=
  ∀ (w : CmdWord) (s t : State) (r : RespWord),
    stepCommand w s = .next t → t.responses = s.responses ++ [r] → r.getLsbD 7 = true →
    t = { s with err := true, ecode := t.ecode, responses := s.responses ++ [r] } ∧
    t.ecode.code = (if s.err then s.ecode.code else r.extractLsb' 0 2) ∧
    r = 0x80#8 ||| (r.extractLsb' 0 2).setWidth 8

/-- R28: `ERR` is set by rejected commands alone, cleared by INIT and reset alone, and while it is set UPDB and FINISH
are rejected. INIT does not read it. -/
def Obligations.ErrorFlagIsSticky : Prop :=
  ∀ s t : State, step s = .next t →
    (s.err = false → t.err = true →
      ∃ w rest r, s.inbox = .command w :: rest ∧ t.responses = s.responses ++ [r] ∧ r.getLsbD 7 = true) ∧
    (s.err = true → t.err = false →
      (∃ w rest m, s.inbox = .command w :: rest ∧ decode w = .command (.init m)) ∨
      (∃ lost rest, s.inbox = .reset lost :: rest)) ∧
    (∀ w rest r, s.inbox = .command w :: rest → t.responses = s.responses ++ [r] → r.getLsbD 7 = true → t.err = true) ∧
    (∀ w rest, s.inbox = .command w :: rest → s.err = true →
      ((∃ d, decode w = .command (.updb d)) ∨ decode w = .command .finish) → t.responses = s.responses ++ [0x82#8]) ∧
    (∀ (m : Mode) (b : Bool), exec (.init m) { s with err := b } = exec (.init m) s)

/-- R239: on a failed context any number of commands that are no INIT are rejected, each with its own code, and leave
everything but the responses as it was; an INIT after them recovers the core. -/
def Obligations.FailedContextStaysFailedUntilInit : Prop :=
  ∀ (ws : List CmdWord) (s : State), s.err = true → (∀ w ∈ ws, ∀ m, decode w ≠ .command (.init m)) →
    let rs : List RespWord := ws.map fun w => match decode w with
      | .illegal _ => 0x81#8
      | .command _ => 0x82#8
    runCommands ws s = .next { s with responses := s.responses ++ rs } ∧
    ∀ m : Mode, ∃ t, runCommands (ws ++ [encode (.init m)]) s = .next t ∧
      t.phase = .active ∧ t.err = false ∧ t.ecode = .noError ∧ t.mode = m ∧ t.responses = s.responses ++ rs ++ [0x00#8]

/-- R27: the values of `PHASE` and its transitions. -/
def Obligations.PhaseTransitions : Prop :=
  (Phase.code .idle = 0#2 ∧ Phase.code .active = 1#2 ∧ Phase.code .done = 2#2) ∧
  (∀ (s t : State) (lost : Option CmdWord) (rest : List HostInput), s.inbox = .reset lost :: rest →
    step s = .next t → t.phase = .idle) ∧
  (∀ (m : Mode) (s t : State), exec (.init m) s = .next t → t.phase = .active) ∧
  (∀ s t : State, exec .finish s = .next t → s.phase = .active → s.err = false → t.phase = .done) ∧
  (∀ (d : Byte) (s t : State), exec (.updb d) s = .next t → t.phase = s.phase) ∧
  (∀ (w : CmdWord) (s t : State) (r : RespWord), stepCommand w s = .next t → t.responses = s.responses ++ [r] →
    r.getLsbD 7 = true → t.phase = s.phase) ∧
  (∀ s t : State, step s = .next t → t.phase ≠ s.phase →
    (∃ lost rest, s.inbox = .reset lost :: rest ∧ t.phase = .idle) ∨
    (∃ w rest m, s.inbox = .command w :: rest ∧ decode w = .command (.init m) ∧ t.phase = .active) ∨
    (∃ w rest, s.inbox = .command w :: rest ∧ decode w = .command .finish ∧ s.phase = .active ∧ t.phase = .done))

/-- 10_state section 12: what can change each element of the state in a step that takes no reset event. The values that
INIT, UPDB and a rejection write are given; those that FINISH gives to `H`, `BUF` and `DOUT` stand in
`FinishPadsAndDelivers` and `DigestBytesAreBigEndianAndCut`. -/
def Obligations.WritersOfEachElement : Prop :=
  ∀ s t : State, step s = .next t → (∀ lost rest, s.inbox ≠ .reset lost :: rest) →
    let ran := fun i : Instr => ∃ w rest, s.inbox = .command w :: rest ∧ decode w = .command i
    let answered := fun r : RespWord => t.responses = s.responses ++ [r]
    (t.mode ≠ s.mode → ran (.init t.mode)) ∧
    (t.h ≠ s.h → (∃ m, ran (.init m) ∧ t.h = initialValues m) ∨
      (∃ d, ran (.updb d) ∧ s.fill = 127#7 ∧ t.h = compress s.h t.buf) ∨ (ran .finish ∧ answered 0x40#8)) ∧
    (t.len ≠ s.len → (∃ m, ran (.init m) ∧ t.len = 0#128) ∨ (∃ d, ran (.updb d) ∧ t.len = s.len + 8#128)) ∧
    (t.fill ≠ s.fill → (∃ m, ran (.init m) ∧ t.fill = 0#7) ∨
      (∃ d, ran (.updb d) ∧ t.fill = (if s.fill = 127#7 then 0#7 else s.fill + 1#7)) ∨ (ran .finish ∧ t.fill = 0#7)) ∧
    (∀ j : Fin 128, t.buf[j] ≠ s.buf[j] → (∃ d, ran (.updb d) ∧ j.val = s.fill.toNat ∧ t.buf[j] = d) ∨
      (ran .finish ∧ answered 0x40#8 ∧ (s.fill.toNat ≤ j.val ∨ 112 ≤ s.fill.toNat))) ∧
    (t.phase ≠ s.phase → (∃ m, ran (.init m) ∧ t.phase = .active) ∨ (ran .finish ∧ t.phase = .done)) ∧
    (t.err ≠ s.err → (∃ m, ran (.init m) ∧ t.err = false) ∨
      (t.err = true ∧ ∃ r, answered r ∧ r.getLsbD 7 = true)) ∧
    (t.ecode ≠ s.ecode → (∃ m, ran (.init m) ∧ t.ecode = .noError) ∨
      (s.err = false ∧ ∃ r, answered r ∧ r.getLsbD 7 = true ∧ t.ecode.code = r.extractLsb' 0 2)) ∧
    (t.dout ≠ s.dout → ran .finish ∧ t.phase = .done ∧ answered 0x40#8)

/-! ## Schedule and compression -/

/-- R162, R163: rotation and shift, bit by bit and as numbers. -/
def Obligations.RotateAndShiftMoveBits : Prop :=
  ∀ (n : Nat) (x : Word), 0 < n → n < 64 →
    (∀ i : Nat, i < 64 → (rotr n x).getLsbD i = x.getLsbD ((i + n) % 64)) ∧
    (rotr n x).toNat = (x.toNat / 2 ^ n + x.toNat * 2 ^ (64 - n)) % 2 ^ 64 ∧
    (shr n x).toNat = x.toNat / 2 ^ n ∧
    (∀ i : Nat, (shr n x).getLsbD i = (decide (i + n ≤ 63) && x.getLsbD (i + n)))

/-- R165 to R168: the four round functions, the sigmas as library rotations and the selections bit by bit. -/
def Obligations.RoundFunctions : Prop :=
  (∀ x : Word, bigSigma0 x = x.rotateRight 28 ^^^ x.rotateRight 34 ^^^ x.rotateRight 39 ∧
    bigSigma1 x = x.rotateRight 14 ^^^ x.rotateRight 18 ^^^ x.rotateRight 41) ∧
  (∀ (x y z : Word) (i : Nat), (ch x y z).getLsbD i = (if x.getLsbD i then y.getLsbD i else z.getLsbD i)) ∧
  (∀ (x y z : Word) (i : Nat), (maj x y z).getLsbD i =
    (x.getLsbD i && y.getLsbD i || x.getLsbD i && z.getLsbD i || y.getLsbD i && z.getLsbD i))

/-- R64, R141: a block read as words, most significant byte first. -/
def Obligations.BlockWordsAreBigEndian : Prop :=
  ∀ (b : Block) (i : Fin 16) (j : Fin 8),
    (blockWords b)[i].extractLsb' (56 - 8 * j.val) 8 = b[8 * i.val + j.val]'(by omega)

/-- R142 to R145: the first 16 schedule words are the block's, and the recurrence of the other 64 with the small sigma
functions written out. -/
def Obligations.ScheduleRecurrence : Prop :=
  ∀ b : Block,
    (∀ t : Fin 16, (schedule b)[t.val] = (blockWords b)[t]) ∧
    (∀ t : Nat, ∀ (lo : 16 ≤ t) (hi : t < 80), (schedule b)[t] =
      ((schedule b)[t - 2].rotateRight 19 ^^^ (schedule b)[t - 2].rotateRight 61 ^^^ (schedule b)[t - 2] >>> 6)
        + (schedule b)[t - 7]
        + ((schedule b)[t - 15].rotateRight 1 ^^^ (schedule b)[t - 15].rotateRight 8 ^^^ (schedule b)[t - 15] >>> 7)
        + (schedule b)[t - 16])

/-- Properties of the schedule (41 section 5): the all-zero block, and that blocks that differ have different first
words. -/
def Obligations.ScheduleOfZeroAndDifferentBlocks : Prop :=
  (∀ t : Fin 80, (schedule (Vector.replicate 128 0x00#8))[t] = 0#64) ∧
  (∀ b b' : Block, (∀ t : Fin 16, (schedule b)[t.val] = (schedule b')[t.val]) → b = b')

/-- R175 to R180: the compression step as a fold of the round over `t = 0 .. 79`, each round written out, and the
feed-forward. -/
def Obligations.CompressIsEightyRounds : Prop :=
  ∀ (r : Regs) (b : Block),
    let final := (List.finRange 80).foldl (fun (x : Working) (t : Fin 80) =>
        let t1 := x.h + (x.e.rotateRight 14 ^^^ x.e.rotateRight 18 ^^^ x.e.rotateRight 41)
          + ((x.e &&& x.f) ^^^ (~~~x.e &&& x.g)) + roundConstants[t] + (schedule b)[t]
        let t2 := (x.a.rotateRight 28 ^^^ x.a.rotateRight 34 ^^^ x.a.rotateRight 39)
          + ((x.a &&& x.b) ^^^ (x.a &&& x.c) ^^^ (x.b &&& x.c))
        { a := t1 + t2, b := x.a, c := x.b, d := x.c, e := x.d + t1, f := x.e, g := x.f, h := x.g })
      { a := r[0], b := r[1], c := r[2], d := r[3], e := r[4], f := r[5], g := r[6], h := r[7] }
    compress r b = #v[r[0] + final.a, r[1] + final.b, r[2] + final.c, r[3] + final.d,
                      r[4] + final.e, r[5] + final.f, r[6] + final.g, r[7] + final.h]

/-- R147: the 16-word window holds the schedule word of each round, and an implementation in window form with
sequential assignments computes the same compression step. -/
def Obligations.WindowFormComputesTheSame : Prop :=
  (∀ (b : Block) (x : Working) (t : Nat) (ht : t < 80),
    (windowRounds b x (t + 1) ht).1[t % 16] = (schedule b)[t]) ∧
  (∀ (r : Regs) (b : Block), windowCompress r b = compress r b)

/-- The round constants are the first 64 bits of the fractional parts of the cube roots of the first 80 primes
(42 section 4; the spec marks the values and this check as general knowledge, log 8). -/
def Obligations.RoundConstantsAreCubeRoots : Prop :=
  let primes := (List.range 410).filter fun p => decide (2 ≤ p) && (List.range p).all fun d => d < 2 || p % d != 0
  primes.length = 80 ∧
  ∀ t : Fin 80, ∃ c ∈ List.range 8,
    (c * 2 ^ 64 + roundConstants[t].toNat) ^ 3 ≤ primes.getD t.val 0 * 2 ^ 192 ∧
    primes.getD t.val 0 * 2 ^ 192 < (c * 2 ^ 64 + roundConstants[t].toNat + 1) ^ 3

/-- The initial values are the first 64 bits of the fractional parts of square roots of primes (44 section 1; the spec
marks the values and this check as general knowledge, log 8), and the two tables share no entry. -/
def Obligations.InitialValuesAreSquareRoots : Prop :=
  (∀ i : Fin 8, ∃ c ∈ List.range 8,
    (c * 2 ^ 64 + (initialValues .sha512)[i].toNat) ^ 2 ≤ [2, 3, 5, 7, 11, 13, 17, 19].getD i.val 0 * 2 ^ 128 ∧
    [2, 3, 5, 7, 11, 13, 17, 19].getD i.val 0 * 2 ^ 128 < (c * 2 ^ 64 + (initialValues .sha512)[i].toNat + 1) ^ 2) ∧
  (∀ i : Fin 8, ∃ c ∈ List.range 8,
    (c * 2 ^ 64 + (initialValues .sha384)[i].toNat) ^ 2 ≤ [23, 29, 31, 37, 41, 43, 47, 53].getD i.val 0 * 2 ^ 128 ∧
    [23, 29, 31, 37, 41, 43, 47, 53].getD i.val 0 * 2 ^ 128 < (c * 2 ^ 64 + (initialValues .sha384)[i].toNat + 1) ^ 2) ∧
  (∀ i j : Fin 8, (initialValues .sha384)[i] ≠ (initialValues .sha512)[j])

/-! ## Invariants -/

/-- 10_state section 7: `ECODE` is 0 exactly when `ERR` is 0, in every state a step reaches from such a state. -/
def Obligations.ErrorCodeAgreementIsKept : Prop :=
  ∀ s t : State, s.ErrAgrees → step s = .next t → t.ErrAgrees

/-- The agreement of `ECODE` and `ERR` holds after reset. -/
def Obligations.ErrorCodeAgreementAtReset : Prop := State.reset.ErrAgrees

/-- 10_state section 11: the context invariant is kept by every step, whatever the input. -/
def Obligations.ContextInvariantIsKept : Prop :=
  ∀ s t : State, s.ContextInv → step s = .next t → t.ContextInv

/-- The context invariant holds after reset. -/
def Obligations.ContextInvariantAtReset : Prop := State.reset.ContextInv

/-- R38, one command at a time: INIT starts with the empty message, an accepted UPDB extends it by its byte, and a
rejected command leaves it. -/
def Obligations.CommandsExtendTheMessage : Prop :=
  (∀ (m : Mode) (s : State), ∃ t, exec (.init m) s = .next t ∧ t.Absorbed [] ∧ t.mode = m ∧ t.live = true) ∧
  (∀ (msg : List Byte) (d : Byte) (s : State), s.live = true → s.Absorbed msg → msg.length + 1 < 2 ^ 125 →
    ∃ t, exec (.updb d) s = .next t ∧ t.Absorbed (msg ++ [d]) ∧ t.mode = s.mode ∧ t.live = true) ∧
  (∀ (msg : List Byte) (w : CmdWord) (s t : State) (r : RespWord), s.Absorbed msg → stepCommand w s = .next t →
    t.responses = s.responses ++ [r] → r.getLsbD 7 = true → t.Absorbed msg)

/-! ## Whole contexts -/

/-- 40 section 5: the padded message is a whole number of blocks, and how many. -/
def Obligations.PaddedMessageIsWholeBlocks : Prop :=
  ∀ msg : List Byte,
    (paddedMessage msg).length = 128 * blockCount msg.length ∧
    blockCount msg.length = msg.length / 128 + (if msg.length % 128 ≤ 111 then 1 else 2) ∧
    (paddedMessage msg).length = msg.length + 1 + zeroCount msg.length + 16 ∧ zeroCount msg.length ≤ 127

/-- FINISH on a live context that has absorbed `msg` delivers the digest of `msg`. -/
def Obligations.FinishDeliversTheDigest : Prop :=
  ∀ (msg : List Byte) (s : State), s.live = true → s.Absorbed msg →
    ∃ t, exec .finish s = .next t ∧ t.phase = .done ∧ t.dout = digestOf s.mode msg ∧
      t.h = hashBlocks (initialValues s.mode) (paddedMessage msg) (blockCount msg.length) ∧
      t.responses = s.responses ++ [0x40#8]

/-- 40 section 5: INIT, the bytes of `msg`, FINISH, from ANY state: every command is accepted and the digest is the one
that the padded message defines. That `digestRead` is what the host may take is the model's reading (log 19). -/
def Obligations.WholeContextComputesTheDigest : Prop :=
  ∀ (m : Mode) (msg : List Byte) (s : State), msg.length < 2 ^ 125 →
    ∃ t, runCommands (hashCmds m msg) s = .next t ∧
      t.responses = s.responses ++ List.replicate (msg.length + 1) 0x00#8 ++ [0x40#8] ∧
      t.phase = .done ∧ t.mode = m ∧ t.err = false ∧ t.dout = digestOf m msg ∧
      t.digestRead = some ((digestOf m msg).toList.take (digestLength m)) ∧
      (∀ j : Fin 64, digestLength m ≤ j.val → t.dout[j] = 0x00#8)

/-- R130: the digest depends on the mode and the message alone. -/
def Obligations.DigestIsDeterministic : Prop :=
  ∀ (m : Mode) (msg : List Byte) (s s' t t' : State), msg.length < 2 ^ 125 →
    runCommands (hashCmds m msg) s = .next t → runCommands (hashCmds m msg) s' = .next t' → t.dout = t'.dout

/-- 30 section 7: `update(data)` as a whole absorbs all of `data`, or fails at the counter's limit with some first part
of it absorbed; and the grouping of a message into updates does not matter. -/
def Obligations.UpdateAbsorbsAllOrFails : Prop :=
  (∀ (data msg : List Byte) (s : State), s.live = true → s.Absorbed msg →
    ∃ t, runCommands (updateCmds data) s = .next t ∧ t.mode = s.mode ∧
      ((msg.length + data.length < 2 ^ 125 ∧ t.live = true ∧ t.Absorbed (msg ++ data)) ∨
       (2 ^ 125 ≤ msg.length + data.length ∧ t.err = true ∧ t.ecode = .length ∧
         t.Absorbed (msg ++ data.take (2 ^ 125 - 1 - msg.length))))) ∧
  (∀ (chunks : List (List Byte)) (s : State),
    runCommands (chunks.flatMap updateCmds) s = runCommands (updateCmds chunks.flatten) s)

/-- 10_state section 13: no rule reads an unspecified value. Two cores in IDLE that agree on the control fields, and on
nothing else, answer every command sequence alike and show the same status and the same digests. That `digestRead` is
what the host may take is the model's reading (log 19). -/
def Obligations.UnspecifiedValuesAreNeverRead : Prop :=
  ∀ (ws : List CmdWord) (s s' t t' : State), s.phase = .idle → s'.phase = .idle → s.mode = s'.mode → s.err = s'.err →
    s.ecode = s'.ecode → s.responses = s'.responses →
    runCommands ws s = .next t → runCommands ws s' = .next t' →
    t.responses = t'.responses ∧ t.status = t'.status ∧ t.digestRead = t'.digestRead

/-- R250: a step of one core changes no other core, is the step of that core alone, and does not depend on the order in
which two cores step (a reset event draws the same free values in both orders: log 4). -/
def Obligations.CoresDoNotInteract : Prop :=
  ∀ (k : Nat) (sys : System), ∃ sys', stepCore k sys = .next sys' ∧
    (∀ j : Nat, j ≠ k → sys'[j]? = sys[j]?) ∧
    (∀ s : State, sys[k]? = some s → ∃ t, step s = .next t ∧ sys'[k]? = some t) ∧
    (∀ (j : Nat) (sysJ both : System), j ≠ k → stepCore j sys = .next sysJ → stepCore j sys' = .next both →
      stepCore k sysJ = .next both)

/-! ## The assembler's lines -/

/-- 30 section 7: a quoted text assembles to one UPDB per character, and `UPDATE 'c' * n` to `n` copies of `UPDB 'c'`.
Parsing, and which characters a text may hold, are the model's own (log 13). -/
def Obligations.UpdateTextAssembles : Prop :=
  (∀ text : List Char, (∀ c ∈ text, isPrintable c = true ∧ c ≠ doubleQuote) →
    assembleLine (['U', 'P', 'D', 'A', 'T', 'E', ' ', doubleQuote] ++ text ++ [doubleQuote]) =
      some (text.map fun c => 0x2000#16 + BitVec.ofNat 16 c.toNat)) ∧
  (∀ (c : Char) (n : Nat), isPrintable c = true →
    assembleLine (['U', 'P', 'D', 'A', 'T', 'E', ' ', singleQuote, c, singleQuote, ' ', '*', ' '] ++ Nat.toDigits 10 n) =
      some (List.replicate n (0x2000#16 + BitVec.ofNat 16 c.toNat)))

/-- The lines of 30 section 6, each with its word. Parsing is the model's own (log 13). -/
def Obligations.CommandLinesAssemble : Prop :=
  assembleLine "INIT SHA384".toList = some [0x1000#16] ∧ assembleLine "INIT SHA512".toList = some [0x1001#16] ∧
  assembleLine "FINISH".toList = some [0x3000#16] ∧ assembleLine "; a comment".toList = some [] ∧
  assembleLine [] = some [] ∧ assembleLine ".word 0x1101 ; illegal".toList = some [0x1101#16] ∧
  (∀ d : Byte, assembleLine ("UPDB ".toList ++ Nat.toDigits 10 d.toNat) = some [0x2000#16 + d.setWidth 16] ∧
    assembleLine ("UPDB 0x".toList ++ Nat.toDigits 16 d.toNat) = some [0x2000#16 + d.setWidth 16]) ∧
  (∀ c : Char, isPrintable c = true →
    assembleLine ("UPDB ".toList ++ [singleQuote, c, singleQuote]) = some [0x2000#16 + BitVec.ofNat 16 c.toNat])
end

