-- ==== Sys2Proof/Laws/State.lean ====
section
/-! SUPPORT. What each named update of the state does to each field, once: later proofs use these and unfold no
update. -/

namespace Sys2Proof.Machine

@[simp] theorem State.respond_h (r : RespWord) (s : State) : (s.respond r).h = s.h := rfl
@[simp] theorem State.respond_mode (r : RespWord) (s : State) : (s.respond r).mode = s.mode := rfl
@[simp] theorem State.respond_len (r : RespWord) (s : State) : (s.respond r).len = s.len := rfl
@[simp] theorem State.respond_fill (r : RespWord) (s : State) : (s.respond r).fill = s.fill := rfl
@[simp] theorem State.respond_buf (r : RespWord) (s : State) : (s.respond r).buf = s.buf := rfl
@[simp] theorem State.respond_phase (r : RespWord) (s : State) : (s.respond r).phase = s.phase := rfl
@[simp] theorem State.respond_err (r : RespWord) (s : State) : (s.respond r).err = s.err := rfl
@[simp] theorem State.respond_ecode (r : RespWord) (s : State) : (s.respond r).ecode = s.ecode := rfl
@[simp] theorem State.respond_dout (r : RespWord) (s : State) : (s.respond r).dout = s.dout := rfl
@[simp] theorem State.respond_inbox (r : RespWord) (s : State) : (s.respond r).inbox = s.inbox := rfl
@[simp] theorem State.respond_responses (r : RespWord) (s : State) : (s.respond r).responses = s.responses ++ [r] := rfl
@[simp] theorem State.respond_resets (r : RespWord) (s : State) : (s.respond r).resets = s.resets := rfl

@[simp] theorem State.bufWrite_h (a : Nat) (bs : List Byte) (s : State) : (s.bufWrite a bs).h = s.h := rfl
@[simp] theorem State.bufWrite_mode (a : Nat) (bs : List Byte) (s : State) : (s.bufWrite a bs).mode = s.mode := rfl
@[simp] theorem State.bufWrite_len (a : Nat) (bs : List Byte) (s : State) : (s.bufWrite a bs).len = s.len := rfl
@[simp] theorem State.bufWrite_fill (a : Nat) (bs : List Byte) (s : State) : (s.bufWrite a bs).fill = s.fill := rfl
@[simp] theorem State.bufWrite_buf (a : Nat) (bs : List Byte) (s : State) : (s.bufWrite a bs).buf = memWrite a bs s.buf := rfl
@[simp] theorem State.bufWrite_phase (a : Nat) (bs : List Byte) (s : State) : (s.bufWrite a bs).phase = s.phase := rfl
@[simp] theorem State.bufWrite_err (a : Nat) (bs : List Byte) (s : State) : (s.bufWrite a bs).err = s.err := rfl
@[simp] theorem State.bufWrite_ecode (a : Nat) (bs : List Byte) (s : State) : (s.bufWrite a bs).ecode = s.ecode := rfl
@[simp] theorem State.bufWrite_dout (a : Nat) (bs : List Byte) (s : State) : (s.bufWrite a bs).dout = s.dout := rfl
@[simp] theorem State.bufWrite_inbox (a : Nat) (bs : List Byte) (s : State) : (s.bufWrite a bs).inbox = s.inbox := rfl
@[simp] theorem State.bufWrite_responses (a : Nat) (bs : List Byte) (s : State) : (s.bufWrite a bs).responses = s.responses := rfl
@[simp] theorem State.bufWrite_resets (a : Nat) (bs : List Byte) (s : State) : (s.bufWrite a bs).resets = s.resets := rfl

@[simp] theorem State.zeroFill_h (lo hi : Nat) (s : State) : (s.zeroFill lo hi).h = s.h := rfl
@[simp] theorem State.zeroFill_mode (lo hi : Nat) (s : State) : (s.zeroFill lo hi).mode = s.mode := rfl
@[simp] theorem State.zeroFill_len (lo hi : Nat) (s : State) : (s.zeroFill lo hi).len = s.len := rfl
@[simp] theorem State.zeroFill_fill (lo hi : Nat) (s : State) : (s.zeroFill lo hi).fill = s.fill := rfl
@[simp] theorem State.zeroFill_buf (lo hi : Nat) (s : State) : (s.zeroFill lo hi).buf = memWrite lo (List.replicate (hi - lo) 0x00#8) s.buf := rfl
@[simp] theorem State.zeroFill_phase (lo hi : Nat) (s : State) : (s.zeroFill lo hi).phase = s.phase := rfl
@[simp] theorem State.zeroFill_err (lo hi : Nat) (s : State) : (s.zeroFill lo hi).err = s.err := rfl
@[simp] theorem State.zeroFill_ecode (lo hi : Nat) (s : State) : (s.zeroFill lo hi).ecode = s.ecode := rfl
@[simp] theorem State.zeroFill_dout (lo hi : Nat) (s : State) : (s.zeroFill lo hi).dout = s.dout := rfl
@[simp] theorem State.zeroFill_inbox (lo hi : Nat) (s : State) : (s.zeroFill lo hi).inbox = s.inbox := rfl
@[simp] theorem State.zeroFill_responses (lo hi : Nat) (s : State) : (s.zeroFill lo hi).responses = s.responses := rfl
@[simp] theorem State.zeroFill_resets (lo hi : Nat) (s : State) : (s.zeroFill lo hi).resets = s.resets := rfl

@[simp] theorem State.compressBuf_h (s : State) : (s.compressBuf).h = compress s.h s.buf := rfl
@[simp] theorem State.compressBuf_mode (s : State) : (s.compressBuf).mode = s.mode := rfl
@[simp] theorem State.compressBuf_len (s : State) : (s.compressBuf).len = s.len := rfl
@[simp] theorem State.compressBuf_fill (s : State) : (s.compressBuf).fill = s.fill := rfl
@[simp] theorem State.compressBuf_buf (s : State) : (s.compressBuf).buf = s.buf := rfl
@[simp] theorem State.compressBuf_phase (s : State) : (s.compressBuf).phase = s.phase := rfl
@[simp] theorem State.compressBuf_err (s : State) : (s.compressBuf).err = s.err := rfl
@[simp] theorem State.compressBuf_ecode (s : State) : (s.compressBuf).ecode = s.ecode := rfl
@[simp] theorem State.compressBuf_dout (s : State) : (s.compressBuf).dout = s.dout := rfl
@[simp] theorem State.compressBuf_inbox (s : State) : (s.compressBuf).inbox = s.inbox := rfl
@[simp] theorem State.compressBuf_responses (s : State) : (s.compressBuf).responses = s.responses := rfl
@[simp] theorem State.compressBuf_resets (s : State) : (s.compressBuf).resets = s.resets := rfl

@[simp] theorem State.raiseErr_h (c : ErrCode) (s : State) : (s.raiseErr c).h = s.h := rfl
@[simp] theorem State.raiseErr_mode (c : ErrCode) (s : State) : (s.raiseErr c).mode = s.mode := rfl
@[simp] theorem State.raiseErr_len (c : ErrCode) (s : State) : (s.raiseErr c).len = s.len := rfl
@[simp] theorem State.raiseErr_fill (c : ErrCode) (s : State) : (s.raiseErr c).fill = s.fill := rfl
@[simp] theorem State.raiseErr_buf (c : ErrCode) (s : State) : (s.raiseErr c).buf = s.buf := rfl
@[simp] theorem State.raiseErr_phase (c : ErrCode) (s : State) : (s.raiseErr c).phase = s.phase := rfl
@[simp] theorem State.raiseErr_err (c : ErrCode) (s : State) : (s.raiseErr c).err = true := rfl
@[simp] theorem State.raiseErr_ecode (c : ErrCode) (s : State) : (s.raiseErr c).ecode = firstError s.err s.ecode c := rfl
@[simp] theorem State.raiseErr_dout (c : ErrCode) (s : State) : (s.raiseErr c).dout = s.dout := rfl
@[simp] theorem State.raiseErr_inbox (c : ErrCode) (s : State) : (s.raiseErr c).inbox = s.inbox := rfl
@[simp] theorem State.raiseErr_responses (c : ErrCode) (s : State) : (s.raiseErr c).responses = s.responses ++ [errResponse c] := rfl
@[simp] theorem State.raiseErr_resets (c : ErrCode) (s : State) : (s.raiseErr c).resets = s.resets := rfl

@[simp] theorem State.clearErr_h (s : State) : (s.clearErr).h = s.h := rfl
@[simp] theorem State.clearErr_mode (s : State) : (s.clearErr).mode = s.mode := rfl
@[simp] theorem State.clearErr_len (s : State) : (s.clearErr).len = s.len := rfl
@[simp] theorem State.clearErr_fill (s : State) : (s.clearErr).fill = s.fill := rfl
@[simp] theorem State.clearErr_buf (s : State) : (s.clearErr).buf = s.buf := rfl
@[simp] theorem State.clearErr_phase (s : State) : (s.clearErr).phase = s.phase := rfl
@[simp] theorem State.clearErr_err (s : State) : (s.clearErr).err = false := rfl
@[simp] theorem State.clearErr_ecode (s : State) : (s.clearErr).ecode = .noError := rfl
@[simp] theorem State.clearErr_dout (s : State) : (s.clearErr).dout = s.dout := rfl
@[simp] theorem State.clearErr_inbox (s : State) : (s.clearErr).inbox = s.inbox := rfl
@[simp] theorem State.clearErr_responses (s : State) : (s.clearErr).responses = s.responses := rfl
@[simp] theorem State.clearErr_resets (s : State) : (s.clearErr).resets = s.resets := rfl

@[simp] theorem State.applyReset_h (s : State) : (s.applyReset).h = (Config.leftByReset s.resets s.leftover).h :=
  rfl
@[simp] theorem State.applyReset_mode (s : State) : (s.applyReset).mode = .sha384 := rfl
@[simp] theorem State.applyReset_len (s : State) : (s.applyReset).len = (Config.leftByReset s.resets s.leftover).len :=
  rfl
@[simp] theorem State.applyReset_fill (s : State) : (s.applyReset).fill = (Config.leftByReset s.resets s.leftover).fill :=
  rfl
@[simp] theorem State.applyReset_buf (s : State) : (s.applyReset).buf = (Config.leftByReset s.resets s.leftover).buf :=
  rfl
@[simp] theorem State.applyReset_phase (s : State) : (s.applyReset).phase = .idle := rfl
@[simp] theorem State.applyReset_err (s : State) : (s.applyReset).err = false := rfl
@[simp] theorem State.applyReset_ecode (s : State) : (s.applyReset).ecode = .noError := rfl
@[simp] theorem State.applyReset_dout (s : State) : (s.applyReset).dout = (Config.leftByReset s.resets s.leftover).dout :=
  rfl
@[simp] theorem State.applyReset_inbox (s : State) : (s.applyReset).inbox = s.inbox := rfl
@[simp] theorem State.applyReset_responses (s : State) : (s.applyReset).responses = s.responses := rfl
@[simp] theorem State.applyReset_resets (s : State) : (s.applyReset).resets = s.resets + 1 := rfl

@[simp] theorem State.popInput_h (s : State) : (s.popInput).h = s.h := rfl
@[simp] theorem State.popInput_mode (s : State) : (s.popInput).mode = s.mode := rfl
@[simp] theorem State.popInput_len (s : State) : (s.popInput).len = s.len := rfl
@[simp] theorem State.popInput_fill (s : State) : (s.popInput).fill = s.fill := rfl
@[simp] theorem State.popInput_buf (s : State) : (s.popInput).buf = s.buf := rfl
@[simp] theorem State.popInput_phase (s : State) : (s.popInput).phase = s.phase := rfl
@[simp] theorem State.popInput_err (s : State) : (s.popInput).err = s.err := rfl
@[simp] theorem State.popInput_ecode (s : State) : (s.popInput).ecode = s.ecode := rfl
@[simp] theorem State.popInput_dout (s : State) : (s.popInput).dout = s.dout := rfl
@[simp] theorem State.popInput_inbox (s : State) : (s.popInput).inbox = s.inbox.tail := rfl
@[simp] theorem State.popInput_responses (s : State) : (s.popInput).responses = s.responses := rfl
@[simp] theorem State.popInput_resets (s : State) : (s.popInput).resets = s.resets := rfl

@[simp] theorem State.placeInput_h (x : HostInput) (s : State) : (s.placeInput x).h = s.h := rfl
@[simp] theorem State.placeInput_mode (x : HostInput) (s : State) : (s.placeInput x).mode = s.mode := rfl
@[simp] theorem State.placeInput_len (x : HostInput) (s : State) : (s.placeInput x).len = s.len := rfl
@[simp] theorem State.placeInput_fill (x : HostInput) (s : State) : (s.placeInput x).fill = s.fill := rfl
@[simp] theorem State.placeInput_buf (x : HostInput) (s : State) : (s.placeInput x).buf = s.buf := rfl
@[simp] theorem State.placeInput_phase (x : HostInput) (s : State) : (s.placeInput x).phase = s.phase := rfl
@[simp] theorem State.placeInput_err (x : HostInput) (s : State) : (s.placeInput x).err = s.err := rfl
@[simp] theorem State.placeInput_ecode (x : HostInput) (s : State) : (s.placeInput x).ecode = s.ecode := rfl
@[simp] theorem State.placeInput_dout (x : HostInput) (s : State) : (s.placeInput x).dout = s.dout := rfl
@[simp] theorem State.placeInput_inbox (x : HostInput) (s : State) : (s.placeInput x).inbox = x :: s.inbox := rfl
@[simp] theorem State.placeInput_responses (x : HostInput) (s : State) : (s.placeInput x).responses = s.responses := rfl
@[simp] theorem State.placeInput_resets (x : HostInput) (s : State) : (s.placeInput x).resets = s.resets := rfl

@[simp] theorem State.issue_h (xs : List HostInput) (s : State) : (s.issue xs).h = s.h := rfl
@[simp] theorem State.issue_mode (xs : List HostInput) (s : State) : (s.issue xs).mode = s.mode := rfl
@[simp] theorem State.issue_len (xs : List HostInput) (s : State) : (s.issue xs).len = s.len := rfl
@[simp] theorem State.issue_fill (xs : List HostInput) (s : State) : (s.issue xs).fill = s.fill := rfl
@[simp] theorem State.issue_buf (xs : List HostInput) (s : State) : (s.issue xs).buf = s.buf := rfl
@[simp] theorem State.issue_phase (xs : List HostInput) (s : State) : (s.issue xs).phase = s.phase := rfl
@[simp] theorem State.issue_err (xs : List HostInput) (s : State) : (s.issue xs).err = s.err := rfl
@[simp] theorem State.issue_ecode (xs : List HostInput) (s : State) : (s.issue xs).ecode = s.ecode := rfl
@[simp] theorem State.issue_dout (xs : List HostInput) (s : State) : (s.issue xs).dout = s.dout := rfl
@[simp] theorem State.issue_inbox (xs : List HostInput) (s : State) : (s.issue xs).inbox = s.inbox ++ xs := rfl
@[simp] theorem State.issue_responses (xs : List HostInput) (s : State) : (s.issue xs).responses = s.responses := rfl
@[simp] theorem State.issue_resets (xs : List HostInput) (s : State) : (s.issue xs).resets = s.resets := rfl

@[simp] theorem State.countByte_h (s : State) : (s.countByte).h = s.h := rfl
@[simp] theorem State.countByte_mode (s : State) : (s.countByte).mode = s.mode := rfl
@[simp] theorem State.countByte_len (s : State) : (s.countByte).len = s.len + 8 := rfl
@[simp] theorem State.countByte_fill (s : State) : (s.countByte).fill = s.fill := rfl
@[simp] theorem State.countByte_buf (s : State) : (s.countByte).buf = s.buf := rfl
@[simp] theorem State.countByte_phase (s : State) : (s.countByte).phase = s.phase := rfl
@[simp] theorem State.countByte_err (s : State) : (s.countByte).err = s.err := rfl
@[simp] theorem State.countByte_ecode (s : State) : (s.countByte).ecode = s.ecode := rfl
@[simp] theorem State.countByte_dout (s : State) : (s.countByte).dout = s.dout := rfl
@[simp] theorem State.countByte_inbox (s : State) : (s.countByte).inbox = s.inbox := rfl
@[simp] theorem State.countByte_responses (s : State) : (s.countByte).responses = s.responses := rfl
@[simp] theorem State.countByte_resets (s : State) : (s.countByte).resets = s.resets := rfl

@[simp] theorem State.padMark_h (s : State) : (s.padMark).h = s.h := rfl
@[simp] theorem State.padMark_mode (s : State) : (s.padMark).mode = s.mode := rfl
@[simp] theorem State.padMark_len (s : State) : (s.padMark).len = s.len := rfl
@[simp] theorem State.padMark_fill (s : State) : (s.padMark).fill = s.fill := rfl
@[simp] theorem State.padMark_buf (s : State) : (s.padMark).buf = memWrite s.fill.toNat [0x80#8] s.buf := rfl
@[simp] theorem State.padMark_phase (s : State) : (s.padMark).phase = s.phase := rfl
@[simp] theorem State.padMark_err (s : State) : (s.padMark).err = s.err := rfl
@[simp] theorem State.padMark_ecode (s : State) : (s.padMark).ecode = s.ecode := rfl
@[simp] theorem State.padMark_dout (s : State) : (s.padMark).dout = s.dout := rfl
@[simp] theorem State.padMark_inbox (s : State) : (s.padMark).inbox = s.inbox := rfl
@[simp] theorem State.padMark_responses (s : State) : (s.padMark).responses = s.responses := rfl
@[simp] theorem State.padMark_resets (s : State) : (s.padMark).resets = s.resets := rfl

@[simp] theorem State.writeLength_h (s : State) : (s.writeLength).h = s.h := rfl
@[simp] theorem State.writeLength_mode (s : State) : (s.writeLength).mode = s.mode := rfl
@[simp] theorem State.writeLength_len (s : State) : (s.writeLength).len = s.len := rfl
@[simp] theorem State.writeLength_fill (s : State) : (s.writeLength).fill = s.fill := rfl
@[simp] theorem State.writeLength_buf (s : State) : (s.writeLength).buf = memWrite 112 (bytesBE 16 (s.len.setWidth 128).toNat) s.buf := rfl
@[simp] theorem State.writeLength_phase (s : State) : (s.writeLength).phase = s.phase := rfl
@[simp] theorem State.writeLength_err (s : State) : (s.writeLength).err = s.err := rfl
@[simp] theorem State.writeLength_ecode (s : State) : (s.writeLength).ecode = s.ecode := rfl
@[simp] theorem State.writeLength_dout (s : State) : (s.writeLength).dout = s.dout := rfl
@[simp] theorem State.writeLength_inbox (s : State) : (s.writeLength).inbox = s.inbox := rfl
@[simp] theorem State.writeLength_responses (s : State) : (s.writeLength).responses = s.responses := rfl
@[simp] theorem State.writeLength_resets (s : State) : (s.writeLength).resets = s.resets := rfl

@[simp] theorem State.deliver_h (s : State) : (s.deliver).h = s.h := rfl
@[simp] theorem State.deliver_mode (s : State) : (s.deliver).mode = s.mode := rfl
@[simp] theorem State.deliver_len (s : State) : (s.deliver).len = s.len := rfl
@[simp] theorem State.deliver_fill (s : State) : (s.deliver).fill = 0#7 := rfl
@[simp] theorem State.deliver_buf (s : State) : (s.deliver).buf = s.buf := rfl
@[simp] theorem State.deliver_phase (s : State) : (s.deliver).phase = .done := rfl
@[simp] theorem State.deliver_err (s : State) : (s.deliver).err = s.err := rfl
@[simp] theorem State.deliver_ecode (s : State) : (s.deliver).ecode = s.ecode := rfl
@[simp] theorem State.deliver_dout (s : State) : (s.deliver).dout = digestBytes s.mode s.h := rfl
@[simp] theorem State.deliver_inbox (s : State) : (s.deliver).inbox = s.inbox := rfl
@[simp] theorem State.deliver_responses (s : State) : (s.deliver).responses = s.responses := rfl
@[simp] theorem State.deliver_resets (s : State) : (s.deliver).resets = s.resets := rfl

@[simp] theorem State.createContext_h (m : Mode) (s : State) : (s.createContext m).h = initialValues m := rfl
@[simp] theorem State.createContext_mode (m : Mode) (s : State) : (s.createContext m).mode = m := rfl
@[simp] theorem State.createContext_len (m : Mode) (s : State) : (s.createContext m).len = 0#128 := rfl
@[simp] theorem State.createContext_fill (m : Mode) (s : State) : (s.createContext m).fill = 0#7 := rfl
@[simp] theorem State.createContext_buf (m : Mode) (s : State) : (s.createContext m).buf = s.buf := rfl
@[simp] theorem State.createContext_phase (m : Mode) (s : State) : (s.createContext m).phase = .active := rfl
@[simp] theorem State.createContext_err (m : Mode) (s : State) : (s.createContext m).err = false := rfl
@[simp] theorem State.createContext_ecode (m : Mode) (s : State) : (s.createContext m).ecode = .noError := rfl
@[simp] theorem State.createContext_dout (m : Mode) (s : State) : (s.createContext m).dout = s.dout := rfl
@[simp] theorem State.createContext_inbox (m : Mode) (s : State) : (s.createContext m).inbox = s.inbox := rfl
@[simp] theorem State.createContext_responses (m : Mode) (s : State) : (s.createContext m).responses = s.responses := rfl
@[simp] theorem State.createContext_resets (m : Mode) (s : State) : (s.createContext m).resets = s.resets := rfl

/-! Updates that choose between two ways: what neither way changes. -/

@[simp] theorem State.advanceFill_mode (s : State) : (s.advanceFill).mode = s.mode := by
  unfold State.advanceFill; dsimp only; split <;> rfl
@[simp] theorem State.advanceFill_len (s : State) : (s.advanceFill).len = s.len := by
  unfold State.advanceFill; dsimp only; split <;> rfl
@[simp] theorem State.advanceFill_buf (s : State) : (s.advanceFill).buf = s.buf := by
  unfold State.advanceFill; dsimp only; split <;> rfl
@[simp] theorem State.advanceFill_phase (s : State) : (s.advanceFill).phase = s.phase := by
  unfold State.advanceFill; dsimp only; split <;> rfl
@[simp] theorem State.advanceFill_err (s : State) : (s.advanceFill).err = s.err := by
  unfold State.advanceFill; dsimp only; split <;> rfl
@[simp] theorem State.advanceFill_ecode (s : State) : (s.advanceFill).ecode = s.ecode := by
  unfold State.advanceFill; dsimp only; split <;> rfl
@[simp] theorem State.advanceFill_dout (s : State) : (s.advanceFill).dout = s.dout := by
  unfold State.advanceFill; dsimp only; split <;> rfl
@[simp] theorem State.advanceFill_inbox (s : State) : (s.advanceFill).inbox = s.inbox := by
  unfold State.advanceFill; dsimp only; split <;> rfl
@[simp] theorem State.advanceFill_responses (s : State) : (s.advanceFill).responses = s.responses := by
  unfold State.advanceFill; dsimp only; split <;> rfl
@[simp] theorem State.advanceFill_resets (s : State) : (s.advanceFill).resets = s.resets := by
  unfold State.advanceFill; dsimp only; split <;> rfl

@[simp] theorem State.padAndCompress_mode (s : State) : (s.padAndCompress).mode = s.mode := by
  unfold State.padAndCompress; dsimp only; split <;> rfl
@[simp] theorem State.padAndCompress_len (s : State) : (s.padAndCompress).len = s.len := by
  unfold State.padAndCompress; dsimp only; split <;> rfl
@[simp] theorem State.padAndCompress_fill (s : State) : (s.padAndCompress).fill = s.fill := by
  unfold State.padAndCompress; dsimp only; split <;> rfl
@[simp] theorem State.padAndCompress_phase (s : State) : (s.padAndCompress).phase = s.phase := by
  unfold State.padAndCompress; dsimp only; split <;> rfl
@[simp] theorem State.padAndCompress_err (s : State) : (s.padAndCompress).err = s.err := by
  unfold State.padAndCompress; dsimp only; split <;> rfl
@[simp] theorem State.padAndCompress_ecode (s : State) : (s.padAndCompress).ecode = s.ecode := by
  unfold State.padAndCompress; dsimp only; split <;> rfl
@[simp] theorem State.padAndCompress_dout (s : State) : (s.padAndCompress).dout = s.dout := by
  unfold State.padAndCompress; dsimp only; split <;> rfl
@[simp] theorem State.padAndCompress_inbox (s : State) : (s.padAndCompress).inbox = s.inbox := by
  unfold State.padAndCompress; dsimp only; split <;> rfl
@[simp] theorem State.padAndCompress_responses (s : State) : (s.padAndCompress).responses = s.responses := by
  unfold State.padAndCompress; dsimp only; split <;> rfl
@[simp] theorem State.padAndCompress_resets (s : State) : (s.padAndCompress).resets = s.resets := by
  unfold State.padAndCompress; dsimp only; split <;> rfl

@[simp] theorem State.absorbByte_mode (d : Byte) (s : State) : (s.absorbByte d).mode = s.mode := by
  simp [State.absorbByte]
@[simp] theorem State.absorbByte_phase (d : Byte) (s : State) : (s.absorbByte d).phase = s.phase := by
  simp [State.absorbByte]
@[simp] theorem State.absorbByte_err (d : Byte) (s : State) : (s.absorbByte d).err = s.err := by
  simp [State.absorbByte]
@[simp] theorem State.absorbByte_ecode (d : Byte) (s : State) : (s.absorbByte d).ecode = s.ecode := by
  simp [State.absorbByte]
@[simp] theorem State.absorbByte_dout (d : Byte) (s : State) : (s.absorbByte d).dout = s.dout := by
  simp [State.absorbByte]
@[simp] theorem State.absorbByte_inbox (d : Byte) (s : State) : (s.absorbByte d).inbox = s.inbox := by
  simp [State.absorbByte]
@[simp] theorem State.absorbByte_responses (d : Byte) (s : State) : (s.absorbByte d).responses = s.responses := by
  simp [State.absorbByte]
@[simp] theorem State.absorbByte_resets (d : Byte) (s : State) : (s.absorbByte d).resets = s.resets := by
  simp [State.absorbByte]
@[simp] theorem State.absorbByte_len (d : Byte) (s : State) : (s.absorbByte d).len = s.len + 8 := by
  simp [State.absorbByte]
@[simp] theorem State.absorbByte_buf (d : Byte) (s : State) :
    (s.absorbByte d).buf = memWrite s.fill.toNat [d] s.buf := by
  simp [State.absorbByte]

theorem State.advanceFill_fill (s : State) :
    s.advanceFill.fill = if s.fill = 127#7 then 0#7 else s.fill + 1 := by
  by_cases hf : s.fill = 127#7 <;> simp [State.advanceFill, hf]

theorem State.advanceFill_h (s : State) :
    s.advanceFill.h = if s.fill = 127#7 then compress s.h s.buf else s.h := by
  by_cases hf : s.fill = 127#7 <;> simp [State.advanceFill, hf]

theorem State.absorbByte_fill (d : Byte) (s : State) :
    (s.absorbByte d).fill = if s.fill = 127#7 then 0#7 else s.fill + 1 :=
  State.advanceFill_fill _

theorem State.absorbByte_h (d : Byte) (s : State) :
    (s.absorbByte d).h =
      if s.fill = 127#7 then compress s.h (memWrite s.fill.toNat [d] s.buf) else s.h :=
  State.advanceFill_h _

end Sys2Proof.Machine
end

