-- ==== Sys2Proof/Laws/Memory.lean ====
section
/-! SUPPORT. Reading one byte or word after a buffer write; the bytes of the big-endian forms. -/

namespace Sys2Proof.Machine

@[simp] theorem getElem_tabulate {α : Type} {n : Nat} (f : Fin n → α) (i : Nat) (hi : i < n) :
    (tabulate n f)[i] = f ⟨i, hi⟩ := by
  simp [tabulate]

/-- A byte after a buffer write: the new byte inside the range written, the old byte outside. -/
theorem getElem_memWrite (a : Nat) (bs : List Byte) (b : Block) (j : Nat) (hj : j < 128) :
    (memWrite a bs b)[j] = if a ≤ j then bs.getD (j - a) b[j] else b[j] := by
  simp [memWrite]

theorem getElem_memWrite_before {a : Nat} {bs : List Byte} {b : Block} {j : Nat} (hj : j < 128) (h : j < a) :
    (memWrite a bs b)[j] = b[j] := by
  rw [getElem_memWrite, if_neg (by omega)]

theorem getElem_memWrite_inside {a : Nat} {bs : List Byte} {b : Block} {j : Nat} (hj : j < 128) (h : a ≤ j)
    (h' : j - a < bs.length) : (memWrite a bs b)[j] = bs[j - a] := by
  rw [getElem_memWrite, if_pos h, List.getD_eq_getElem _ _ h']

theorem getElem_memWrite_after {a : Nat} {bs : List Byte} {b : Block} {j : Nat} (hj : j < 128)
    (h' : a + bs.length ≤ j) : (memWrite a bs b)[j] = b[j] := by
  rw [getElem_memWrite, if_pos (by omega), List.getD_eq_default _ _ (by omega)]

/-- A one-byte write is a set. -/
theorem memWrite_singleton (a : Nat) (ha : a < 128) (d : Byte) (b : Block) : memWrite a [d] b = b.set a d := by
  apply Vector.ext
  intro j hj
  rw [Vector.getElem_set]
  by_cases h : a = j
  · subst h
    rw [getElem_memWrite_inside hj (Nat.le_refl _) (by simp), if_pos rfl]
    simp
  · rw [if_neg h]
    rcases Nat.lt_or_gt_of_ne h with h | h
    · exact getElem_memWrite_after hj h
    · exact getElem_memWrite_before hj h

@[simp] theorem length_bytesBE (n v : Nat) : (bytesBE n v).length = n := by
  simp [bytesBE]

@[simp] theorem getElem_bytesBE (n v j : Nat) (hj : j < (bytesBE n v).length) : (bytesBE n v)[j] = byteBE n v j := by
  simp [bytesBE]

theorem memWrite_of_eq {a : Nat} {bs : List Byte} {b b' : Block}
    (h : ∀ j (hj : j < 128), (if a ≤ j then bs.getD (j - a) b[j] else b[j]) = b'[j]) : memWrite a bs b = b' := by
  apply Vector.ext
  intro j hj
  rw [getElem_memWrite, h]

end Sys2Proof.Machine
end

