-- ==== Sys2Proof/Laws/Compression.lean ====
section
/-! SUPPORT. Small laws of the schedule and the compression step. -/

namespace Sys2Proof.Machine

/-- Rotation is the library's. -/
theorem rotr_eq_rotateRight (n : Nat) (x : Word) (h : n < 64) : rotr n x = x.rotateRight n := by
  simp [rotr, shr, BitVec.rotateRight, BitVec.rotateRightAux, Nat.mod_eq_of_lt h]

@[simp] theorem getElem_blockWords (b : Block) (i : Nat) (hi : i < 16) :
    (blockWords b)[i] = memRead64 b (8 * i) (by omega) := by
  simp [blockWords]

theorem scheduleUpTo_succ (b : Block) (n : Nat) :
    scheduleUpTo b (n + 1) = (scheduleUpTo b n).push
      (smallSigma1 (scheduleUpTo b n)[n + 14] + (scheduleUpTo b n)[n + 9] + smallSigma0 (scheduleUpTo b n)[n + 1]
        + (scheduleUpTo b n)[n]) := rfl

/-- A word once in the schedule stays. -/
theorem getElem_scheduleUpTo_of_le (b : Block) {n m t : Nat} (h : n ≤ m) (ht : t < 16 + n) :
    (scheduleUpTo b m)[t] = (scheduleUpTo b n)[t] := by
  induction m, h using Nat.le_induction with
  | base => rfl
  | succ m hm ih =>
    simp only [scheduleUpTo_succ, Vector.getElem_push]
    rw [dif_pos (by omega), ih]

theorem getElem_schedule (b : Block) {n t : Nat} (hn : n ≤ 64) (ht : t < 16 + n) :
    (schedule b)[t] = (scheduleUpTo b n)[t] :=
  getElem_scheduleUpTo_of_le b hn ht

/-- The bytes of a big-endian word are those it was made of. -/
theorem be64_toNat (b0 b1 b2 b3 b4 b5 b6 b7 : Byte) :
    (be64 b0 b1 b2 b3 b4 b5 b6 b7).toNat = b0.toNat * 2 ^ 56 + b1.toNat * 2 ^ 48 + b2.toNat * 2 ^ 40
      + b3.toNat * 2 ^ 32 + b4.toNat * 2 ^ 24 + b5.toNat * 2 ^ 16 + b6.toNat * 2 ^ 8 + b7.toNat := by
  rw [be64, BitVec.toNat_ofNat, Nat.mod_eq_of_lt]
  omega

/-- One byte of `bytes_be` as bits. -/
theorem byteBE_toNat {w : Nat} (n j : Nat) (x : BitVec w) : byteBE n x.toNat j = x.extractLsb' (8 * (n - 1 - j)) 8 := by
  apply BitVec.eq_of_toNat_eq
  simp [byteBE, BitVec.extractLsb', Nat.shiftRight_eq_div_pow]

end Sys2Proof.Machine
end

