-- ==== Sys2Proof/Laws/Exec.lean ====
section
/-! SUPPORT. What each command can do, once: its accepted and rejected cases, and the inversion of a command and of a
step. Later proofs cite these and unfold no meaning. -/

namespace Sys2Proof.Machine

@[simp] theorem State.live_iff (s : State) : s.live = true ↔ s.phase = .active ∧ s.err = false := by
  simp [State.live]

@[simp] theorem State.lenFull_iff (s : State) : s.lenFull = true ↔ 2 ^ 128 ≤ s.len.toNat + 8 :=
  decide_eq_true_iff

theorem execUpdb_accepted {s : State} (d : Byte) (hl : s.live = true) (hf : s.lenFull = false) :
    execUpdb d s = .next ((s.absorbByte d).respond 0x00#8) := by
  simp [execUpdb, hl, hf]

theorem execUpdb_notLive {s : State} (d : Byte) (hl : s.live = false) :
    execUpdb d s = .next (s.raiseErr .badState) := by
  simp [execUpdb, hl]

theorem execUpdb_full {s : State} (d : Byte) (hl : s.live = true) (hf : s.lenFull = true) :
    execUpdb d s = .next (s.raiseErr .length) := by
  simp [execUpdb, hl, hf]

theorem execFinish_accepted {s : State} (hl : s.live = true) :
    execFinish s = .next (s.padAndCompress.deliver.respond 0x40#8) := by
  simp [execFinish, hl]

theorem execFinish_notLive {s : State} (hl : s.live = false) : execFinish s = .next (s.raiseErr .badState) := by
  simp [execFinish, hl]

/-- Everything that one command word can do to a state. -/
inductive CommandCase (w : CmdWord) (s : State) : State → Prop
  | illegal (why : Illegal) (hd : decode w = .illegal why) : CommandCase w s (s.raiseErr .illegal)
  | init (m : Mode) (hd : decode w = .command (.init m)) : CommandCase w s ((s.createContext m).respond 0x00#8)
  | updb (d : Byte) (hd : decode w = .command (.updb d)) (hl : s.live = true) (hf : s.lenFull = false) :
      CommandCase w s ((s.absorbByte d).respond 0x00#8)
  | updbFull (d : Byte) (hd : decode w = .command (.updb d)) (hl : s.live = true) (hf : s.lenFull = true) :
      CommandCase w s (s.raiseErr .length)
  | finish (hd : decode w = .command .finish) (hl : s.live = true) :
      CommandCase w s (s.padAndCompress.deliver.respond 0x40#8)
  | notLive (hd : (∃ d, decode w = .command (.updb d)) ∨ decode w = .command .finish) (hl : s.live = false) :
      CommandCase w s (s.raiseErr .badState)

/-- A command word always has one of those cases as its next state. -/
theorem stepCommand_case (w : CmdWord) (s : State) : ∃ t, stepCommand w s = .next t ∧ CommandCase w s t := by
  unfold stepCommand
  split
  · next i hd =>
    cases i with
    | init m => exact ⟨_, rfl, .init m hd⟩
    | updb d =>
      cases hl : s.live with
      | false => exact ⟨_, execUpdb_notLive d hl, .notLive (.inl ⟨d, hd⟩) hl⟩
      | true =>
        cases hf : s.lenFull with
        | false => exact ⟨_, execUpdb_accepted d hl hf, .updb d hd hl hf⟩
        | true => exact ⟨_, execUpdb_full d hl hf, .updbFull d hd hl hf⟩
    | finish =>
      cases hl : s.live with
      | false => exact ⟨_, execFinish_notLive hl, .notLive (.inr hd) hl⟩
      | true => exact ⟨_, execFinish_accepted hl, .finish hd hl⟩
  · next why hd => exact ⟨_, rfl, .illegal why hd⟩

/-- Inversion of one command: if it answers `t`, one of the cases gives `t`. -/
theorem stepCommand_inv {w : CmdWord} {s t : State} (h : stepCommand w s = .next t) : CommandCase w s t := by
  obtain ⟨t', ht, hc⟩ := stepCommand_case w s
  rw [ht] at h
  cases h
  exact hc

/-- Inversion of one step: the core waits, or takes a reset event, or answers a command. -/
theorem step_inv {s t : State} (h : step s = .next t) :
    (s.inbox = [] ∧ t = s) ∨ (∃ lost rest, s.inbox = .reset lost :: rest ∧ t = s.popInput.applyReset) ∨
      (∃ w rest, s.inbox = .command w :: rest ∧ CommandCase w s.popInput t) := by
  unfold step at h
  split at h
  · next hi => cases h; exact .inl ⟨hi, rfl⟩
  · next w rest hi => exact .inr (.inr ⟨w, rest, hi, stepCommand_inv h⟩)
  · next lost rest hi => cases h; exact .inr (.inl ⟨lost, rest, hi, rfl⟩)

@[simp] theorem runCommands_nil (s : State) : runCommands [] s = .next s := rfl

theorem runCommands_cons {w : CmdWord} {ws : List CmdWord} {s t : State} (h : stepCommand w s = .next t) :
    runCommands (w :: ws) s = runCommands ws t := by
  simp [runCommands, h]

/-- Running one sequence after another. -/
theorem runCommands_append {ws vs : List CmdWord} {s t : State} (h : runCommands ws s = .next t) :
    runCommands (ws ++ vs) s = runCommands vs t := by
  induction ws generalizing s with
  | nil => cases h; rfl
  | cons w ws ih =>
    obtain ⟨u, hu, -⟩ := stepCommand_case w s
    rw [List.cons_append, runCommands_cons hu]
    rw [runCommands_cons hu] at h
    exact ih h

/-- A command sequence always runs to its end. -/
theorem runCommands_next (ws : List CmdWord) (s : State) : ∃ t, runCommands ws s = .next t := by
  induction ws generalizing s with
  | nil => exact ⟨s, rfl⟩
  | cons w ws ih =>
    obtain ⟨u, hu, -⟩ := stepCommand_case w s
    rw [runCommands_cons hu]
    exact ih u

end Sys2Proof.Machine
end

