-- ==== Sys2Proof/Laws/Padding.lean ====
section
/-! SUPPORT. What the padding formatter does, once: the block or the two blocks it makes, byte by byte. -/

namespace Sys2Proof.Machine

/-- A byte of the length field as bits of the counter. -/
theorem lengthByte (s : State) (j : Nat) :
    byteBE 16 (s.len.setWidth 128).toNat j = s.len.extractLsb' (8 * (15 - j)) 8 := by
  rw [show (s.len.setWidth 128).toNat = s.len.toNat by simp, byteBE_toNat]

theorem getElem_padMark {s : State} {j : Nat} (hj : j < 128) (hle : j ≤ s.fill.toNat) :
    s.padMark.buf[j] = if j < s.fill.toNat then s.buf[j] else 0x80#8 := by
  simp only [State.padMark_buf, getElem_memWrite]
  by_cases h : j < s.fill.toNat
  · rw [if_neg (by omega), if_pos h]
  · rw [if_pos (by omega), if_neg h, show j - s.fill.toNat = 0 by omega]
    rfl

theorem getElem_zeroFill (s : State) (lo hi : Nat) {j : Nat} (hj : j < 128) :
    (s.zeroFill lo hi).buf[j] = if lo ≤ j ∧ j < hi then 0x00#8 else s.buf[j] := by
  simp only [State.zeroFill_buf]
  by_cases h1 : lo ≤ j
  · by_cases h2 : j < hi
    · rw [getElem_memWrite_inside hj h1 (by simp only [List.length_replicate]; omega), List.getElem_replicate,
        if_pos ⟨h1, h2⟩]
    · rw [getElem_memWrite_after hj (by simp only [List.length_replicate]; omega), if_neg (by omega)]
  · rw [getElem_memWrite_before hj (by omega), if_neg (by omega)]

theorem getElem_writeLength (s : State) {j : Nat} (hj : j < 128) :
    s.writeLength.buf[j] = if j < 112 then s.buf[j] else s.len.extractLsb' (8 * (127 - j)) 8 := by
  simp only [State.writeLength_buf]
  by_cases h : j < 112
  · rw [getElem_memWrite_before hj h, if_pos h]
  · rw [getElem_memWrite_inside hj (by omega) (by simp only [length_bytesBE]; omega), getElem_bytesBE, if_neg h,
      lengthByte, show 127 - j = 15 - (j - 112) by omega]

/-- The padded block where the length fits in the current block: `b` is that block. -/
theorem padAndCompress_oneBlock {s : State} {b : Block} (hf : s.fill.toNat ≤ 111)
    (hb : ∀ j (hj : j < 128), b[j] =
      if j < s.fill.toNat then s.buf[j] else if j = s.fill.toNat then 0x80#8
      else if j < 112 then 0x00#8 else s.len.extractLsb' (8 * (127 - j)) 8) :
    s.padAndCompress = { s with buf := b, h := compress s.h b } := by
  have hbuf : (s.padMark.zeroFill (s.fill.toNat + 1) 112).writeLength.buf = b := by
    apply Vector.ext
    intro j hj
    rw [getElem_writeLength _ hj, hb j hj]
    by_cases h1 : j < 112
    · rw [if_pos h1, getElem_zeroFill _ _ _ hj]
      by_cases h2 : j ≤ s.fill.toNat
      · rw [if_neg (by omega), getElem_padMark hj h2]
        split
        · rfl
        · rw [if_pos (by omega)]
      · rw [if_pos (by omega), if_neg (by omega), if_neg (by omega), if_pos h1]
    · rw [if_neg h1, if_neg (by omega), if_neg (by omega), if_neg h1]
      rfl
  unfold State.padAndCompress
  simp only [if_neg (show ¬ 112 < s.fill.toNat + 1 by omega)]
  rw [← hbuf]
  rfl

/-- The two padded blocks where the length does not fit in the current block. -/
theorem padAndCompress_twoBlocks {s : State} {b b' : Block} (hf : 112 ≤ s.fill.toNat)
    (hb : ∀ j (hj : j < 128), b[j] =
      if j < s.fill.toNat then s.buf[j] else if j = s.fill.toNat then 0x80#8 else 0x00#8)
    (hb' : ∀ j (hj : j < 128), b'[j] = if j < 112 then 0x00#8 else s.len.extractLsb' (8 * (127 - j)) 8) :
    s.padAndCompress = { s with buf := b', h := compress (compress s.h b) b' } := by
  have hbuf : (s.padMark.zeroFill (s.fill.toNat + 1) 128).buf = b := by
    apply Vector.ext
    intro j hj
    rw [getElem_zeroFill _ _ _ hj, hb j hj]
    by_cases h2 : j ≤ s.fill.toNat
    · rw [if_neg (by omega), getElem_padMark hj h2]
      split
      · rfl
      · rw [if_pos (by omega)]
    · rw [if_pos (by omega), if_neg (by omega), if_neg (by omega)]
  have hbuf' : ((s.padMark.zeroFill (s.fill.toNat + 1) 128).compressBuf.zeroFill 0 112).writeLength.buf = b' := by
    apply Vector.ext
    intro j hj
    rw [getElem_writeLength _ hj, hb' j hj]
    split
    · rw [getElem_zeroFill _ _ _ hj, if_pos (by omega)]
    · rfl
  unfold State.padAndCompress
  simp only [if_pos (show 112 < s.fill.toNat + 1 by omega)]
  rw [← hbuf', ← hbuf]
  rfl

end Sys2Proof.Machine
end

