-- ==== Sys2Proof/Laws/PerInstr.lean ====
section
/-! SUPPORT. Laws stated per instruction, one lemma for each constructor: family `EncodesWellFormed`, that an
instruction's word passes its own check and no other (30_encoding R92 to R94, R97). -/

namespace Sys2Proof.Laws.EncodesWellFormed

/-- Which of the three word checks an instruction's encoding passes. -/
def Statement : Instr → Prop
  | .init m => isInitWord (encode (.init m)) = true ∧ isUpdbWord (encode (.init m)) = false ∧
      isFinishWord (encode (.init m)) = false
  | .updb d => isInitWord (encode (.updb d)) = false ∧ isUpdbWord (encode (.updb d)) = true ∧
      isFinishWord (encode (.updb d)) = false
  | .finish => isInitWord (encode .finish) = false ∧ isUpdbWord (encode .finish) = false ∧
      isFinishWord (encode .finish) = true

theorem init (m : Mode) : Statement (.init m) := by
  cases m <;> exact ⟨rfl, rfl, rfl⟩

theorem updb (d : Byte) : Statement (.updb d) := by
  show isInitWord (encode (.updb d)) = false ∧ isUpdbWord (encode (.updb d)) = true ∧
    isFinishWord (encode (.updb d)) = false
  revert d
  decide +kernel

theorem finish : Statement .finish := ⟨rfl, rfl, rfl⟩

end Sys2Proof.Laws.EncodesWellFormed
end

