-- ==== Sys2Proof/Laws/Reference.lean ====
section
/-! SUPPORT. Small laws of the reference: blocks of a message and of a longer one, and the bytes of the padded
message. -/

namespace Sys2Proof.Machine

@[simp] theorem getElem_blockAt (p : List Byte) (k j : Nat) (hj : j < 128) :
    (blockAt p k)[j] = p.getD (128 * k + j) 0x00#8 := by
  simp [blockAt]

/-- A complete block of a message is the same block of every extension. -/
theorem blockAt_append (p q : List Byte) {k : Nat} (h : 128 * (k + 1) ≤ p.length) : blockAt (p ++ q) k = blockAt p k := by
  apply Vector.ext
  intro j hj
  rw [getElem_blockAt, getElem_blockAt, List.getD_append _ _ _ _ (by omega)]

/-- The registers after complete blocks of a message are the same for every extension. -/
theorem hashBlocks_append (r : Regs) (p q : List Byte) {k : Nat} (h : 128 * k ≤ p.length) :
    hashBlocks r (p ++ q) k = hashBlocks r p k := by
  induction k with
  | zero => rfl
  | succ k ih =>
    rw [hashBlocks, hashBlocks, ih (by omega), blockAt_append p q h]

theorem zeroCount_le (n : Nat) (h : n % 128 ≤ 111) : zeroCount n = 111 - n % 128 := by
  unfold zeroCount
  omega

theorem zeroCount_gt (n : Nat) (h : 112 ≤ n % 128) : zeroCount n = 239 - n % 128 := by
  unfold zeroCount
  omega

/-- A byte of the padded message, by its place. -/
theorem getD_paddedMessage (msg : List Byte) (k : Nat) :
    (paddedMessage msg).getD k 0x00#8 =
      if h : k < msg.length then msg[k] else if k = msg.length then 0x80#8
      else if k < msg.length + 1 + zeroCount msg.length then 0x00#8
      else if k < msg.length + 1 + zeroCount msg.length + 16 then
        byteBE 16 (8 * msg.length) (k - (msg.length + 1 + zeroCount msg.length))
      else 0x00#8 := by
  unfold paddedMessage
  split
  · next h =>
    rw [List.getD_append _ _ _ _ (by simp; omega), List.getD_append _ _ _ _ (by simp; omega),
      List.getD_append _ _ _ _ h, List.getD_eq_getElem _ _ h]
  · split
    · next h =>
      rw [List.getD_append _ _ _ _ (by simp; omega), List.getD_append _ _ _ _ (by simp; omega),
        List.getD_append_right _ _ _ _ (by omega), h, Nat.sub_self]
      rfl
    · split
      · rw [List.getD_append _ _ _ _ (by simp; omega), List.getD_append_right _ _ _ _ (by simp; omega),
          List.getD_eq_getElem _ _ (by simp; omega), List.getElem_replicate]
      · rw [List.getD_append_right _ _ _ _ (by simp; omega)]
        split
        · rw [List.getD_eq_getElem _ _ (by simp; omega), getElem_bytesBE]
          simp only [List.length_append, List.length_replicate, List.length_singleton]
        · rw [List.getD_eq_default _ _ (by simp; omega)]

/-- The length bound of an absorbed message as a number. -/
theorem State.Absorbed.length_lt {msg : List Byte} {s : State} (h : s.Absorbed msg) : msg.length < 2 ^ 125 := h.len_lt

end Sys2Proof.Machine
end

