-- ==== Sys2Proof/Tests/Slice0.lean ====
section
/-! SUPPORT. The model's own tests. Expected values are the spec's, from the table or rule named in each docstring, or
worked by hand from the encodings; none is the model's own answer. The theorems `witness_…` show that the hypotheses of
a statement can be met. -/

namespace Sys2Proof.Tests

open Sys2Proof Sys2Proof.Machine

/-! ## Small states -/

/-- A live context in mode `m` with `fill` pending bytes `buf`, the counter at `len`, and the registers as INIT leaves
them. -/
def liveState (m : Mode) (len : BitCount) (fill : BitVec 7) (buf : Block) : State :=
  { State.reset with mode := m, h := initialValues m, len := len, fill := fill, buf := buf, phase := .active }

/-- A buffer that begins with the bytes `bs`, zeros after them. -/
def bufOf (bs : List Byte) : Block := memWrite 0 bs (Vector.replicate 128 0x00#8)

/-- The context of `bytes 61 62 63` before FINISH (95 P1). -/
def abcState (m : Mode) : State := liveState m 24#128 3#7 (bufOf [0x61#8, 0x62#8, 0x63#8])

/-- The padded block of "abc" (43 R201). -/
def abcBlock : Block := memWrite 127 [0x18#8] (bufOf [0x61#8, 0x62#8, 0x63#8, 0x80#8])

/-- A field of the next state. -/
def nextField {α : Type} (f : State → α) : Host.Outcome State Fault Refusal → Option α
  | .next t => some (f t)
  | .fault _ => none
  | .refused _ => none

/-! ## Well-formed words: an ill-formed word for each check (30 R97) -/

theorem test_init_check_refuses_argument_bit : isInitWord 0x1002#16 = false := by decide
theorem test_updb_check_refuses_reserved_bit : isUpdbWord 0x2161#16 = false := by decide
theorem test_finish_check_refuses_argument : isFinishWord 0x3001#16 = false := by decide
theorem test_all_zero_word_is_ill_formed : wellFormedWord 0x0000#16 = false := by decide
theorem test_opcode_four_is_ill_formed : wellFormedWord 0x4000#16 = false := by decide

/-! ## Decoding: words written out bit by bit from the encodings (30 R92 to R94) -/

theorem test_decode_init_sha384 : decode 0b0001000000000000#16 = .command (.init .sha384) := by decide
theorem test_decode_init_sha512 : decode 0b0001000000000001#16 = .command (.init .sha512) := by decide
theorem test_decode_updb_bits : decode 0b0010000001100001#16 = .command (.updb 0b01100001#8) := by decide
theorem test_decode_updb_top_bit : decode 0b0010000010000000#16 = .command (.updb 0b10000000#8) := by decide
theorem test_decode_finish : decode 0b0011000000000000#16 = .command .finish := by decide

/-- 95 T1: one word of each kind of illegal word, by the name of what is wrong. -/
theorem test_decode_illegal_reasons :
    decode 0x1002#16 = .illegal .initArgument ∧ decode 0x1101#16 = .illegal .reserved ∧
    decode 0x3001#16 = .illegal .finishArgument ∧ decode 0xFFFF#16 = .illegal .opcode := by decide

theorem test_decode_table_words :
    decodeTableWord 16 0x1001 = some (.init .sha512) ∧ decodeTableWord 16 0x20FF = some (.updb 0xFF#8) ∧
    decodeTableWord 16 0x3000 = some .finish ∧ decodeTableWord 16 0x0000 = none := by decide

/-! ## Arithmetic (95 T3, T4, T5) -/

theorem test_rotate : rotr 8 0x0123456789abcdef#64 = 0xef0123456789abcd#64 ∧
    rotr 63 0x0123456789abcdef#64 = 0x02468acf13579bde#64 ∧ rotr 1 1#64 = 0x8000000000000000#64 := by decide

theorem test_shift : shr 7 0x0123456789abcdef#64 = 0x0002468acf13579b#64 ∧
    shr 6 0x0123456789abcdef#64 = 0x00048d159e26af37#64 := by decide

theorem test_sigmas :
    smallSigma0 0x0123456789abcdef#64 = 0x6f92c77c6c4f1aa1#64 ∧
    smallSigma1 0x0123456789abcdef#64 = 0x70a3460dbbd4317a#64 ∧
    bigSigma0 0x0123456789abcdef#64 = 0xb7c57a100c7ec1ab#64 ∧
    bigSigma1 0x0123456789abcdef#64 = 0x7703112333475567#64 := by decide

theorem test_ch_maj :
    ch 0x510e527fade682d1#64 0x9b05688c2b3e6c1f#64 0x1f83d9abfb41bd6b#64 = 0x1f85c98c7b273d3b#64 ∧
    maj 0x6a09e667f3bcc908#64 0xbb67ae8584caa73b#64 0x3c6ef372fe94f82b#64 = 0x3a6fe667f69ce92b#64 := by decide

/-! ## Schedule and rounds (95 T6, T7) -/

theorem test_block_words : (blockWords abcBlock)[0] = 0x6162638000000000#64 ∧
    (blockWords abcBlock)[15] = 0x0000000000000018#64 := by decide +kernel

theorem test_schedule_abc : (schedule abcBlock)[17] = 0x00030000000000c0#64 ∧
    (schedule abcBlock)[30] = 0xb31b8c2b06085f2f#64 := by decide +kernel

/-- The working registers after round 0 in SHA-512 mode. -/
theorem test_round_zero : roundStep 0x428a2f98d728ae22#64 0x6162638000000000#64 (Working.load iv512) =
    { a := 0xf6afceb8bcfcddf5#64, b := 0x6a09e667f3bcc908#64, c := 0xbb67ae8584caa73b#64, d := 0x3c6ef372fe94f82b#64,
      e := 0x58cb02347ab51f91#64, f := 0x510e527fade682d1#64, g := 0x9b05688c2b3e6c1f#64,
      h := 0x1f83d9abfb41bd6b#64 } := by decide +kernel

theorem test_feed_forward_wraps :
    (0x5be0cd19137e2179#64 : Word) + 0xceb9fc3691ce8326#64 = 0x2a9ac94fa54ca49f#64 := by decide

/-! ## INIT (40 R121, 95 T13) -/

theorem test_init_loads_sha384 : nextField (fun t => (t.h[0], t.h[7], t.mode, t.phase)) (exec (.init .sha384) State.reset)
    = some (0xcbbb9d5dc1059ed8#64, 0x47b5481dbefa4fa4#64, .sha384, .active) := by decide +kernel

/-- 95 T2, P3 step 2: INIT clears the error of the command before it. -/
theorem test_init_recovers : nextField (fun t => (t.status, t.responses))
    (exec (.init .sha512) (State.reset.raiseErr .badState)) = some (0x05#8, [0x82#8, 0x00#8]) := by decide +kernel

/-! ## UPDB (40 R124, 95 T2, T12) -/

/-- 95 T12 row 1 and the example of R124. -/
theorem test_updb_first_byte : nextField (fun t => (t.buf[0], t.len, t.fill, t.responses))
    (exec (.updb 0x61#8) (liveState .sha512 0#128 0#7 (bufOf []))) = some (0x61#8, 8#128, 1#7, [0x00#8]) := by
  decide +kernel

/-- 95 P6, T9: the 128th byte `61` of a SHA-384 context compresses the block. -/
theorem test_updb_completes_block : nextField (fun t => (t.h, t.len, t.fill))
    (exec (.updb 0x61#8) (liveState .sha384 1016#128 127#7 (Vector.replicate 128 0x61#8))) =
    some (#v[0x91041f93c7c2e25c, 0x37d9fabfbb830723, 0x17339410cb8bbb2f, 0xa170bb5bb5276a67,
             0xd6357de121728231, 0xbe53cdefe6337828, 0xab890c97626558c4, 0x50efa72bdd496605], 1024#128, 0#7) := by
  decide +kernel

/-! ## FINISH (40 R127) -/

/-- 95 V4: SHA-384 of "abc", one block; the first and the last digest byte, and the zero fill (44 R218). -/
theorem test_finish_one_block : nextField (fun t => ([t.dout[0], t.dout[47], t.dout[48], t.dout[63]], t.status, t.responses))
    (exec .finish (abcState .sha384)) = some ([0xcb#8, 0xa7#8, 0x00#8, 0x00#8], 0x02#8, [0x40#8]) := by decide +kernel

/-- The fourteen overlapping windows of the 112-byte message (95 V2). -/
def message112 : List Byte := (List.range 14).flatMap fun i => (List.range 8).map fun j => BitVec.ofNat 8 (0x61 + i + j)

/-- 95 V2, P4: SHA-512 of the 112-byte message, two blocks. -/
theorem test_finish_two_blocks : nextField (fun t => (t.h, t.fill, t.status))
    (exec .finish (liveState .sha512 896#128 112#7 (bufOf message112))) =
    some (#v[0x8e959b75dae313da, 0x8cf4f72814fc143f, 0x8f7779c6eb9f7fa1, 0x7299aeadb6889018,
             0x501d289e4900f7e4, 0x331b99dec4b5433a, 0xc7d329eeb6dd2654, 0x5e96e55b874be909], 0#7, 0x06#8) := by
  decide +kernel

/-! ## Errors (95 T2, T12, P5) -/

theorem test_finish_in_idle : nextField (fun t => (t.status, t.responses)) (exec .finish State.reset) =
    some (0x28#8, [0x82#8]) := by decide +kernel

theorem test_updb_at_limit : nextField (fun t => (t.status, t.responses, t.len, t.fill))
    (exec (.updb 0x61#8) (liveState .sha512 (BitVec.ofNat 128 (2 ^ 128 - 8)) 127#7 (bufOf []))) =
    some (0x3D#8, [0x83#8], BitVec.ofNat 128 (2 ^ 128 - 8), 127#7) := by decide +kernel

theorem test_updb_below_limit : nextField (fun t => (t.responses, t.len, t.fill))
    (exec (.updb 0x61#8) (liveState .sha512 (BitVec.ofNat 128 (2 ^ 128 - 16)) 126#7 (bufOf []))) =
    some ([0x00#8], BitVec.ofNat 128 (2 ^ 128 - 8), 127#7) := by decide +kernel

/-- 95 P5 step 4: the first error's code stays while a later command answers its own. -/
theorem test_first_error_stays : nextField (fun t => (t.status, t.responses))
    (exec (.updb 0x62#8) ((liveState .sha512 8#128 1#7 (bufOf [])).raiseErr .illegal)) =
    some (0x1D#8, [0x81#8, 0x82#8]) := by decide +kernel

/-- A step from reset takes a placed word; an illegal one is rejected (95 P5, T1). -/
theorem test_step_placed_words :
    nextField (fun t => (t.status, t.responses)) (step (State.reset.withFetchWord 16 0x1001)) = some (0x05#8, [0x00#8]) ∧
    nextField (fun t => (t.status, t.responses)) (step (State.reset.withFetchWord 16 0x1101)) = some (0x18#8, [0x81#8]) :=
  by decide +kernel

/-! ## The assembler (30 R101, R104; 95 P3, P5) -/

theorem test_assemble_lines :
    assemble ["INIT SHA512      ; 0x1001".toList, "UPDB 'a'".toList, ".word 0x0000     ; illegal, op = 0".toList,
      "  UPDB 0xFF".toList, "".toList, "UPDATE 'a' * 2".toList, "FINISH".toList] =
    some [0x1001#16, 0x2061#16, 0x0000#16, 0x20FF#16, 0x2061#16, 0x2061#16, 0x3000#16] := by decide +kernel

theorem test_assembler_refuses : assembleLine "UPDB 256".toList = none ∧ assembleLine "UPDB 0x123".toList = none ∧
    assembleLine "INIT SHA256".toList = none ∧ assembleLine "FINISH 1".toList = none ∧
    assembleLine "init SHA512".toList = none := by decide +kernel

/-! ## Witnesses: the hypotheses of each statement met together -/

/-- `s` with the host's next inputs `xs`. -/
def withInputs (s : State) (xs : List HostInput) : State := { s with inbox := xs }

/-- The context that has absorbed `msg`, for a message shorter than one block. -/
def contextOf (m : Mode) (msg : List Byte) : State :=
  liveState m (BitVec.ofNat 128 (8 * msg.length)) (BitVec.ofNat 7 msg.length) (blockAt msg 0)

theorem contextOf_absorbed (m : Mode) {msg : List Byte} (h : msg.length < 128) : (contextOf m msg).Absorbed msg := by
  have h0 : msg.length / 128 = 0 := by omega
  refine ⟨?_, ?_, ?_, ?_, ?_⟩
  · show (BitVec.ofNat 128 (8 * msg.length)).toNat = _
    rw [BitVec.toNat_ofNat, Nat.mod_eq_of_lt (by omega)]
  · show msg.length < 2 ^ 125
    omega
  · show (BitVec.ofNat 7 msg.length).toNat = _
    rw [BitVec.toNat_ofNat]
  · intro j hj
    have hj : j.val < msg.length % 128 := by
      have e : (contextOf m msg).fill.toNat = msg.length % 128 := BitVec.toNat_ofNat ..
      omega
    have e : (contextOf m msg).buf[j] = msg.getD (128 * 0 + j.val) 0x00#8 := getElem_blockAt msg 0 j.val j.isLt
    rw [h0, e, List.getD_eq_getElem?_getD, List.getElem?_eq_getElem (by omega)]
    rfl
  · rw [h0]
    rfl

/-- A live context whose next input is a FINISH delivers. -/
theorem step_finish {s : State} {rest : List HostInput} (hi : s.inbox = .command 0x3000#16 :: rest)
    (hl : s.popInput.live = true) : step s = .next (s.popInput.padAndCompress.deliver.respond 0x40#8) := by
  unfold step
  rw [hi]
  exact execFinish_accepted hl

/-- A reset event that is next is taken, with a command in progress or without. -/
theorem step_reset {s : State} {lost : Option CmdWord} {rest : List HostInput} (hi : s.inbox = .reset lost :: rest) :
    step s = .next s.popInput.applyReset := by
  unfold step
  rw [hi]
  rfl

theorem bufOf_nil (j : Fin 128) : (bufOf [])[j] = 0x00#8 := by
  revert j
  decide +kernel

/-- The longest message that the counter admits. -/
def longestMessage : List Byte := List.replicate (2 ^ 125 - 1) 0x00#8

/-- A live context at the counter's limit, with the registers of the longest message. -/
def limitState : State :=
  { liveState .sha512 (BitVec.ofNat 128 (2 ^ 128 - 8)) 127#7 (bufOf []) with
    h := hashBlocks iv512 longestMessage ((2 ^ 125 - 1) / 128) }

theorem length_longestMessage : longestMessage.length = 2 ^ 125 - 1 := List.length_replicate

theorem limitState_absorbed : limitState.Absorbed longestMessage := by
  refine ⟨?_, ?_, ?_, ?_, ?_⟩
  · rw [length_longestMessage]
    decide
  · rw [length_longestMessage]
    decide
  · rw [length_longestMessage]
    decide
  · intro j hj
    have hj : j.val < 127 := hj
    rw [length_longestMessage, longestMessage, List.getElem?_replicate, if_pos (by omega)]
    exact congrArg some (bufOf_nil j).symm
  · rw [length_longestMessage]
    rfl

theorem witness_DecodeAndEncodeInvert :
    (0x1001#16 &&& 0xFFFE#16 = 0x1000#16) ∧ (0x20FF#16 &&& 0xFF00#16 = 0x2000#16) ∧
    (0x1002#16 &&& 0xFFFE#16 ≠ 0x1000#16 ∧ 0x1002#16 &&& 0xFF00#16 ≠ 0x2000#16 ∧ 0x1002#16 ≠ 0x3000#16) ∧
    decode 0x20FF#16 = .command (.updb 0xFF#8) := by decide

theorem witness_WellFormedWordsAreExactlyThese : wellFormedWord 0x2100#16 = false ∧ wellFormedWord 0x1FFF#16 = false ∧
    wellFormedWord 0x2000#16 = true ∧ wellFormedWord 0x20FF#16 = true := by decide

/-- One word under each clause, each with its neighbour that is well-formed. -/
theorem witness_IllegalWordsAreRejected :
    decode 0x0FFF#16 = .illegal .opcode ∧ decode 0x2100#16 = .illegal .reserved ∧
    decode 0x1080#16 = .illegal .initArgument ∧ decode 0x30FF#16 = .illegal .finishArgument ∧
    (withInputs State.reset [.command 0x2100#16]).inbox = .command 0x2100#16 :: [] := by decide

theorem witness_StepRunsTheDecodedCommand :
    (withInputs State.reset [.command 0x1001#16, .reset none]).inbox = .command 0x1001#16 :: [.reset none] ∧
    decode 0x1001#16 = .command (.init .sha512) := by decide

theorem witness_StepAlwaysCompletes : State.reset.inbox = [] := rfl

theorem witness_ResetEventReachesIdle :
    (withInputs State.reset [.reset (some 0x2061#16)]).inbox = .reset (some 0x2061#16) :: [] ∧
    ∃ s t : State, step s = .next t ∧ s.phase ≠ .idle ∧ t.phase = .idle :=
  ⟨rfl, withInputs (abcState .sha512) [.reset none], _, rfl, by decide, rfl⟩

/-- Each clause at the ends of its range of `FILL` and at the counter's limit. -/
theorem witness_UpdbAbsorbsOneByte :
    (let s := liveState .sha512 0#128 0#7 (bufOf [])
     s.phase = .active ∧ s.err = false ∧ s.len.toNat + 8 < 2 ^ 128 ∧ s.fill ≠ 127#7) ∧
    (let s := liveState .sha512 (BitVec.ofNat 128 (2 ^ 128 - 16)) 126#7 (bufOf [])
     s.phase = .active ∧ s.err = false ∧ s.len.toNat + 8 < 2 ^ 128 ∧ s.fill ≠ 127#7) ∧
    (let s := liveState .sha512 1016#128 127#7 (bufOf [])
     s.phase = .active ∧ s.err = false ∧ s.len.toNat + 8 < 2 ^ 128 ∧ s.fill = 127#7) ∧
    (State.reset.phase ≠ .active ∧ ((abcState .sha512).raiseErr .illegal).err = true) ∧
    (let s := liveState .sha512 (BitVec.ofNat 128 (2 ^ 128 - 8)) 127#7 (bufOf [])
     s.phase = .active ∧ s.err = false ∧ 2 ^ 128 ≤ s.len.toNat + 8) := by decide

theorem witness_CounterLimitRejectsUpdb :
    (let s := liveState .sha384 (BitVec.ofNat 128 (2 ^ 128 - 8)) 127#7 (bufOf [])
     s.phase = .active ∧ s.err = false ∧ s.len.toNat + 8 ≥ 2 ^ 128 ∧ 8 ∣ s.len.toNat) ∧
    (limitState.phase = .active ∧ limitState.err = false ∧ limitState.Absorbed longestMessage ∧
      longestMessage.length = 2 ^ 125 - 1) ∧
    (let s := contextOf .sha512 []
     s.phase = .active ∧ s.err = false ∧ s.Absorbed [] ∧ ([] : List Byte).length ≠ 2 ^ 125 - 1) :=
  ⟨by decide, ⟨rfl, rfl, limitState_absorbed, length_longestMessage⟩,
   rfl, rfl, contextOf_absorbed _ (by decide), by decide⟩

theorem witness_ModeSelectsOnlyTablesAndLength :
    (∃ t, exec (.init .sha384) (abcState .sha512) = .next t) ∧ (∃ t, exec (.updb 0x61#8) (abcState .sha512) = .next t) ∧ (∃ t, exec .finish (abcState .sha512) = .next t) :=
  ⟨⟨_, rfl⟩, ⟨_, execUpdb_accepted _ rfl (by decide)⟩, ⟨_, execFinish_accepted rfl⟩⟩

theorem exists_block (f : Fin 128 → Byte) : ∃ b : Block, ∀ j : Fin 128, b[j] = f j :=
  ⟨tabulate 128 f, fun j => getElem_tabulate f j.val j.isLt⟩

/-- One block at both ends of its range of `FILL`, two blocks at both ends of theirs. -/
theorem witness_FinishPadsAndDelivers :
    (∀ f ∈ [0#7, 111#7], let s := liveState .sha384 888#128 f (bufOf [])
      s.phase = .active ∧ s.err = false ∧ s.fill.toNat ≤ 111 ∧ ∃ b : Block, ∀ j : Fin 128, b[j] =
        if j.val < s.fill.toNat then s.buf[j] else if j.val = s.fill.toNat then 0x80#8
        else if j.val < 112 then 0x00#8 else s.len.extractLsb' (8 * (127 - j.val)) 8) ∧
    (∀ f ∈ [112#7, 127#7], let s := liveState .sha512 1016#128 f (bufOf [])
      s.phase = .active ∧ s.err = false ∧ 112 ≤ s.fill.toNat ∧
      (∃ b1 : Block, ∀ j : Fin 128, b1[j] =
        if j.val < s.fill.toNat then s.buf[j] else if j.val = s.fill.toNat then 0x80#8 else 0x00#8) ∧
      ∃ b2 : Block, ∀ j : Fin 128, b2[j] =
        if j.val < 112 then 0x00#8 else s.len.extractLsb' (8 * (127 - j.val)) 8) := by
  refine ⟨fun f hf => ⟨rfl, rfl, ?_, exists_block fun j : Fin 128 =>
      if j.val < f.toNat then (bufOf [])[j] else if j.val = f.toNat then 0x80#8
      else if j.val < 112 then 0x00#8 else (888#128).extractLsb' (8 * (127 - j.val)) 8⟩,
    fun f hf => ⟨rfl, rfl, ?_,
      exists_block fun j : Fin 128 =>
        if j.val < f.toNat then (bufOf [])[j] else if j.val = f.toNat then 0x80#8 else 0x00#8,
      exists_block fun j : Fin 128 => if j.val < 112 then 0x00#8 else (1016#128).extractLsb' (8 * (127 - j.val)) 8⟩⟩
  · show f.toNat ≤ 111
    revert f
    decide
  · show 112 ≤ f.toNat
    revert f
    decide

theorem witness_CommandsOnADeadContextAreRejected :
    State.reset.phase ≠ .active ∧ ((abcState .sha512).raiseErr .illegal).err = true := by decide

theorem witness_LengthFieldHoldsTheCounter : (abcState .sha384).phase = .active ∧ (abcState .sha384).err = false ∧
    ∃ t, exec .finish (abcState .sha384) = .next t := ⟨rfl, rfl, _, execFinish_accepted rfl⟩

theorem witness_CommandFrames :
    (∃ t, exec (.init .sha384) (abcState .sha512) = .next t) ∧
    (∃ t, exec (.updb 0x61#8) (abcState .sha512) = .next t ∧ (abcState .sha512).fill ≠ 127#7 ∧
      (abcState .sha512).len.toNat + 8 < 2 ^ 128) ∧
    (∃ t, exec .finish (abcState .sha512) = .next t ∧ (abcState .sha512).fill.toNat ≤ 111) ∧
    (∃ t, exec .finish State.reset = .next t ∧ State.reset.phase ≠ .active) :=
  ⟨⟨_, rfl⟩, ⟨_, execUpdb_accepted _ rfl (by decide), by decide, by decide⟩,
   ⟨_, execFinish_accepted rfl, by decide⟩, ⟨_, execFinish_notLive rfl, by decide⟩⟩

theorem witness_RejectedCommandsArePrecise : ∃ t, stepCommand 0x3000#16 State.reset = .next t ∧
    t.responses = State.reset.responses ++ [0x82#8] ∧ (0x82#8).getLsbD 7 = true := ⟨_, rfl, by decide, by decide⟩

theorem witness_ErrorFlagIsSticky :
    (∃ s t : State, step s = .next t ∧ s.err = false ∧ t.err = true) ∧
    (∃ s t : State, step s = .next t ∧ s.err = true ∧ t.err = false) ∧
    (∃ s t : State, step s = .next t ∧ s.inbox = .command 0x3000#16 :: [] ∧ s.err = true ∧
      decode 0x3000#16 = .command .finish ∧ t.responses = s.responses ++ [0x82#8] ∧ (0x82#8).getLsbD 7 = true) :=
  ⟨⟨withInputs State.reset [.command 0x0000#16], _, rfl, rfl, rfl⟩,
   ⟨withInputs (State.reset.raiseErr .illegal) [.command 0x1000#16], _, rfl, rfl, rfl⟩,
   ⟨withInputs (State.reset.raiseErr .illegal) [.command 0x3000#16], _, rfl, rfl, rfl, rfl, rfl, rfl⟩⟩

theorem witness_FailedContextStaysFailedUntilInit : ((abcState .sha512).raiseErr .illegal).err = true ∧
    ∀ w ∈ [0x0000#16, 0x2061#16, 0x3000#16], ∀ m, decode w ≠ .command (.init m) := by
  refine ⟨rfl, fun w hw m => ?_⟩
  have h0 : decode 0x0000#16 = .illegal .opcode := by decide
  have h2 : decode 0x2061#16 = .command (.updb 0x61#8) := by decide
  have h3 : decode 0x3000#16 = .command .finish := by decide
  simp only [List.mem_cons, List.not_mem_nil, or_false] at hw
  rcases hw with rfl | rfl | rfl
  · simp [h0]
  · simp [h2]
  · simp [h3]

theorem witness_PhaseTransitions :
    (∃ t, exec (.init .sha512) State.reset = .next t) ∧
    (∃ t, exec .finish (abcState .sha512) = .next t ∧ (abcState .sha512).phase = .active ∧
      (abcState .sha512).err = false) ∧
    (∃ t, exec (.updb 0x61#8) (abcState .sha512) = .next t) ∧
    (∃ t, stepCommand 0x3000#16 State.reset = .next t ∧ t.responses = State.reset.responses ++ [0x82#8]) ∧
    (∃ s t : State, s.inbox = .reset none :: [] ∧ step s = .next t) ∧
    (∃ s t : State, step s = .next t ∧ t.phase ≠ s.phase) :=
  ⟨⟨_, rfl⟩, ⟨_, execFinish_accepted rfl, rfl, rfl⟩, ⟨_, execUpdb_accepted _ rfl (by decide)⟩, ⟨_, rfl, rfl⟩,
   ⟨withInputs State.reset [.reset none], _, rfl, step_reset rfl⟩,
   withInputs State.reset [.command 0x1000#16],
   (((withInputs State.reset [.command 0x1000#16]).popInput).createContext .sha384).respond 0x00#8, rfl, by decide⟩

theorem witness_WritersOfEachElement : ∃ s t : State, step s = .next t ∧ (∀ lost rest, s.inbox ≠ .reset lost :: rest) ∧
    t.mode ≠ s.mode ∧ t.h ≠ s.h ∧ t.len ≠ s.len ∧ t.fill ≠ s.fill := by
  refine ⟨withInputs (abcState .sha384) [.command 0x1001#16],
    (((withInputs (abcState .sha384) [.command 0x1001#16]).popInput).createContext .sha512).respond 0x00#8,
    rfl, ?_, ?_, ?_, ?_, ?_⟩
  · intro lost rest h
    cases h
  · decide
  · decide
  · decide
  · decide

/-- An UPDB at the last index of the buffer writes it. -/
theorem witness_WritersOfEachElement_buf : ∃ (s t : State) (j : Fin 128), step s = .next t ∧
    (∀ lost rest, s.inbox ≠ .reset lost :: rest) ∧ t.buf[j] ≠ s.buf[j] := by
  refine ⟨withInputs (liveState .sha384 1016#128 127#7 (bufOf [])) [.command 0x2061#16], _, 127,
    execUpdb_accepted (s := (withInputs (liveState .sha384 1016#128 127#7 (bufOf [])) [.command 0x2061#16]).popInput)
      0x61#8 rfl (by decide), ?_, ?_⟩
  · intro lost rest h
    cases h
  · simp only [State.respond_buf, State.absorbByte_buf]
    decide +kernel

theorem witness_WritersOfEachElement_control :
    (∃ s t : State, step s = .next t ∧ (∀ lost rest, s.inbox ≠ .reset lost :: rest) ∧ t.phase ≠ s.phase) ∧
    (∃ s t : State, step s = .next t ∧ (∀ lost rest, s.inbox ≠ .reset lost :: rest) ∧ t.err ≠ s.err ∧
      t.ecode ≠ s.ecode) := by
  refine ⟨⟨withInputs State.reset [.command 0x1000#16],
      (((withInputs State.reset [.command 0x1000#16]).popInput).createContext .sha384).respond 0x00#8, rfl, ?_, ?_⟩,
    ⟨withInputs State.reset [.command 0x0000#16],
      ((withInputs State.reset [.command 0x0000#16]).popInput).raiseErr .illegal, rfl, ?_, ?_, ?_⟩⟩
  · intro lost rest h
    cases h
  · decide
  · intro lost rest h
    cases h
  · decide
  · decide

theorem witness_WritersOfEachElement_dout : ∃ s t : State, step s = .next t ∧
    (∀ lost rest, s.inbox ≠ .reset lost :: rest) ∧ t.dout ≠ s.dout := by
  refine ⟨withInputs { abcState .sha384 with dout := Vector.replicate 64 0xFF#8 } [.command 0x3000#16], _,
    step_finish rfl rfl, ?_, fun h => ?_⟩
  · intro lost rest h
    cases h
  have h63 := congrArg (fun d : DigestReg => d[63]) h
  simp [withInputs, abcState, liveState, digestBytes, digestLength] at h63

theorem witness_RotateAndShiftMoveBits : (0 < 1 ∧ 1 < 64) ∧ (0 < 63 ∧ 63 < 64) := by decide

theorem witness_ScheduleRecurrence : (16 ≤ 16 ∧ 16 < 80) ∧ (16 ≤ 79 ∧ 79 < 80) := by decide

theorem witness_ScheduleOfZeroAndDifferentBlocks : ∃ b b' : Block, ∀ t : Fin 16, (schedule b)[t.val] = (schedule b')[t.val] :=
  ⟨abcBlock, abcBlock, fun _ => rfl⟩

theorem witness_WindowFormComputesTheSame : 0 < 80 ∧ 79 < 80 := by decide

theorem witness_ErrorCodeAgreementIsKept : ∃ s t : State, s.ErrAgrees ∧ step s = .next t :=
  ⟨withInputs State.reset [.command 0x0000#16], _, by unfold State.ErrAgrees; decide, rfl⟩

/-- The invariant in ACTIVE, where the last command of a context is next, and in DONE. -/
theorem witness_ContextInvariantIsKept :
    (∃ s t : State, s.phase = .active ∧ s.ContextInv ∧ step s = .next t) ∧
    (∃ s t : State, s.phase = .done ∧ s.ContextInv ∧ step s = .next t) := by
  refine ⟨⟨withInputs (contextOf .sha512 [0x61#8]) [.command 0x3000#16], _, rfl, ⟨fun _ => ⟨[0x61#8], ?_⟩, ?_⟩,
      step_finish rfl rfl⟩,
    ⟨{ State.reset with phase := .done, dout := digestOf .sha384 [] }, _, rfl, ⟨?_, fun _ => ⟨[], ?_, rfl⟩⟩, rfl⟩⟩
  · have h := contextOf_absorbed .sha512 (msg := [0x61#8]) (by decide)
    exact ⟨h.len_eq, h.len_lt, h.fill_eq, h.pending, h.regs_eq⟩
  · intro h
    cases h
  · intro h
    cases h
  · decide

theorem witness_CommandsExtendTheMessage :
    (∃ s : State, s.live = true ∧ s.Absorbed [] ∧ ([] : List Byte).length + 1 < 2 ^ 125) ∧
    (∃ s : State, s.live = true ∧ s.Absorbed (List.replicate 127 0x61#8) ∧ s.fill = 127#7) ∧
    (∃ t r, (contextOf .sha512 []).Absorbed [] ∧ stepCommand 0x0000#16 (contextOf .sha512 []) = .next t ∧
      t.responses = (contextOf .sha512 []).responses ++ [r] ∧ r.getLsbD 7 = true) :=
  ⟨⟨contextOf .sha512 [], rfl, contextOf_absorbed _ (by decide), by decide⟩,
   ⟨contextOf .sha384 _, rfl, contextOf_absorbed _ (by simp), by simp [contextOf, liveState]⟩,
   ⟨_, 0x81#8, contextOf_absorbed _ (by decide), rfl, rfl, rfl⟩⟩

theorem witness_FinishDeliversTheDigest : ∃ s : State, s.live = true ∧ s.Absorbed (List.replicate 112 0x61#8) :=
  ⟨contextOf .sha512 _, rfl, contextOf_absorbed _ (by simp)⟩

theorem witness_WholeContextComputesTheDigest : [0x61#8, 0x62#8, 0x63#8].length < 2 ^ 125 := by decide

theorem witness_DigestIsDeterministic : ∃ s s' t t' : State, s ≠ s' ∧ ([] : List Byte).length < 2 ^ 125 ∧
    runCommands (hashCmds .sha512 []) s = .next t ∧ runCommands (hashCmds .sha512 []) s' = .next t' := by
  obtain ⟨t, ht⟩ := runCommands_next (hashCmds .sha512 []) State.reset
  obtain ⟨t', ht'⟩ := runCommands_next (hashCmds .sha512 []) (abcState .sha384)
  exact ⟨_, _, t, t', by decide, by decide, ht, ht'⟩

/-- A context with room for the data, and one that has absorbed the longest message the counter admits. -/
theorem witness_UpdateAbsorbsAllOrFails :
    (∃ s : State, s.live = true ∧ s.Absorbed [] ∧ ([] : List Byte).length + [0x61#8].length < 2 ^ 125) ∧
    (∃ (msg : List Byte) (s : State), s.live = true ∧ s.Absorbed msg ∧ 2 ^ 125 ≤ msg.length + [0x61#8].length) := by
  refine ⟨⟨contextOf .sha512 [], rfl, contextOf_absorbed _ (by decide), by decide⟩,
    longestMessage, limitState, rfl, limitState_absorbed, ?_⟩
  rw [length_longestMessage]
  decide

theorem witness_UnspecifiedValuesAreNeverRead : ∃ s s' t t' : State, s.phase = .idle ∧ s'.phase = .idle ∧
    s.mode = s'.mode ∧ s.err = s'.err ∧ s.ecode = s'.ecode ∧ s.responses = s'.responses ∧ s.fill ≠ s'.fill ∧
    runCommands [0x1000#16, 0x2061#16] s = .next t ∧ runCommands [0x1000#16, 0x2061#16] s' = .next t' := by
  obtain ⟨t, ht⟩ := runCommands_next [0x1000#16, 0x2061#16] State.reset
  obtain ⟨t', ht'⟩ := runCommands_next [0x1000#16, 0x2061#16] { State.reset with fill := 5#7, len := 3#128 }
  exact ⟨State.reset, { State.reset with fill := 5#7, len := 3#128 }, t, t', rfl, rfl, rfl, rfl, rfl, rfl, by decide,
    ht, ht'⟩

theorem witness_CoresDoNotInteract : ∃ sys sysJ sys' both : System, sys[0]? = some State.reset ∧ 1 ≠ 0 ∧
    stepCore 1 sys = .next sysJ ∧ stepCore 0 sys = .next sys' ∧ stepCore 1 sys' = .next both :=
  ⟨[State.reset, withInputs State.reset [.command 0x1000#16]], _, _, _, rfl, by decide, rfl, rfl, rfl⟩

/-- The ends of the printable range. -/
theorem witness_CommandLinesAssemble : isPrintable ' ' = true ∧ isPrintable '~' = true ∧ isPrintable singleQuote = true := by
  decide

theorem witness_UpdateTextAssembles : ∀ c ∈ ['a', ';', ' ', '~'], isPrintable c = true ∧ c ≠ doubleQuote := by
  simp [isPrintable, doubleQuote]

end Sys2Proof.Tests
end

section
/-! SUPPORT. The control fields `PHASE` and `ERR` (10_state R27, R28): what each command and each step can do to them.
A rejected command is recognised by its response and is then `State.raiseErr`; everything else follows from that. -/

namespace Sys2Proof.Machine

/-! ## Rejection -/

/-- Every error response has the `E` bit (30 R100). -/
@[simp] theorem errResponse_getLsbD_seven (c : ErrCode) : (errResponse c).getLsbD 7 = true := by
  cases c <;> rfl

/-- R236: the `E` bit of the response tells a rejected command, and a rejected command does `raiseErr` alone. -/
theorem CommandCase.eq_raiseErr_of_rejected {w : CmdWord} {s t : State} {r : RespWord} (hc : CommandCase w s t)
    (hr : t.responses = s.responses ++ [r]) (hE : r.getLsbD 7 = true) : ∃ c, t = s.raiseErr c := by
  cases hc with
  | illegal => exact ⟨_, rfl⟩
  | updbFull => exact ⟨_, rfl⟩
  | notLive => exact ⟨_, rfl⟩
  | init =>
    obtain rfl : 0x00#8 = r := by simpa using hr
    exact absurd hE (by decide)
  | updb =>
    obtain rfl : 0x00#8 = r := by simpa using hr
    exact absurd hE (by decide)
  | finish =>
    obtain rfl : 0x40#8 = r := by simpa using hr
    exact absurd hE (by decide)

theorem State.live_eq_false_of_err {s : State} (he : s.err = true) : s.live = false := by
  simp [State.live, he]

/-- R233: on a failed context UPDB and FINISH take ERR_STATE. -/
theorem CommandCase.eq_raiseErr_badState_of_err {w : CmdWord} {s t : State} (hc : CommandCase w s t)
    (he : s.err = true) (hw : (∃ d, decode w = .command (.updb d)) ∨ decode w = .command .finish) :
    t = s.raiseErr .badState := by
  have hn := State.live_eq_false_of_err he
  cases hc with
  | notLive => rfl
  | illegal why hd => simp [hd] at hw
  | init m hd => simp [hd] at hw
  | updb d hd hl => simp [hn] at hl
  | updbFull d hd hl => simp [hn] at hl
  | finish hd hl => simp [hn] at hl

/-! ## One command -/

/-- What one command can do to `ERR`: INIT clears it, a rejection sets it, an accepted UPDB or FINISH keeps it. -/
theorem CommandCase.err_cases {w : CmdWord} {s t : State} (hc : CommandCase w s t) :
    (∃ m, decode w = .command (.init m) ∧ t.err = false) ∨ (∃ c, t = s.raiseErr c) ∨ t.err = s.err := by
  cases hc with
  | init m hd => exact .inl ⟨m, hd, by simp⟩
  | illegal => exact .inr (.inl ⟨_, rfl⟩)
  | updbFull => exact .inr (.inl ⟨_, rfl⟩)
  | notLive => exact .inr (.inl ⟨_, rfl⟩)
  | updb => exact .inr (.inr (by simp))
  | finish => exact .inr (.inr (by simp))

/-- What one command can do to `PHASE`: INIT enters ACTIVE, FINISH goes from ACTIVE to DONE, all else keeps it. -/
theorem CommandCase.phase_cases {w : CmdWord} {s t : State} (hc : CommandCase w s t) :
    (∃ m, decode w = .command (.init m) ∧ t.phase = .active) ∨
      (decode w = .command .finish ∧ s.phase = .active ∧ t.phase = .done) ∨ t.phase = s.phase := by
  cases hc with
  | init m hd => exact .inl ⟨m, hd, by simp⟩
  | finish hd hl => exact .inr (.inl ⟨hd, (s.live_iff.mp hl).1, by simp⟩)
  | illegal => exact .inr (.inr rfl)
  | updbFull => exact .inr (.inr rfl)
  | notLive => exact .inr (.inr rfl)
  | updb => exact .inr (.inr (by simp))

/-- INIT reads no error flag: the context it creates is the same for either value. -/
theorem State.createContext_setErr (m : Mode) (s : State) (b : Bool) :
    ({ s with err := b } : State).createContext m = s.createContext m := rfl

/-- Inversion of UPDB: it absorbs its byte or is rejected. -/
theorem execUpdb_inv {d : Byte} {s t : State} (h : execUpdb d s = .next t) :
    t = (s.absorbByte d).respond 0x00#8 ∨ ∃ c, t = s.raiseErr c := by
  unfold execUpdb at h
  split at h
  · cases h; exact .inr ⟨_, rfl⟩
  · split at h
    · cases h; exact .inr ⟨_, rfl⟩
    · cases h; exact .inl rfl

/-- UPDB keeps `PHASE`, accepted or rejected. -/
theorem execUpdb_phase {d : Byte} {s t : State} (h : execUpdb d s = .next t) : t.phase = s.phase := by
  obtain rfl | ⟨c, rfl⟩ := execUpdb_inv h <;> simp

/-! ## One step -/

/-- Inversion of a step that takes a command word. -/
theorem step_command_inv {s t : State} {w : CmdWord} {rest : List HostInput} (hi : s.inbox = .command w :: rest)
    (h : step s = .next t) : CommandCase w s.popInput t := by
  simp only [step, hi] at h
  exact stepCommand_inv h

/-- Inversion of a step that takes a reset event. -/
theorem step_reset_inv {s t : State} {lost : Option CmdWord} {rest : List HostInput}
    (hi : s.inbox = .reset lost :: rest) (h : step s = .next t) : t = s.popInput.applyReset := by
  simp only [step, hi, takeReset] at h
  cases h
  rfl

/-- R28: `ERR` rises only when a command is rejected. -/
theorem step_err_set {s t : State} (h : step s = .next t) (hs : s.err = false) (ht : t.err = true) :
    ∃ w rest c, s.inbox = .command w :: rest ∧ t = s.popInput.raiseErr c := by
  obtain ⟨-, rfl⟩ | ⟨lost, rest, -, rfl⟩ | ⟨w, rest, hi, hc⟩ := step_inv h
  · simp [hs] at ht
  · simp at ht
  · obtain ⟨m, -, hm⟩ | ⟨c, hr⟩ | hk := hc.err_cases
    · simp [hm] at ht
    · exact ⟨w, rest, c, hi, hr⟩
    · simp [hk, hs] at ht

/-- R28: `ERR` falls only in an INIT or a reset event. -/
theorem step_err_clear {s t : State} (h : step s = .next t) (hs : s.err = true) (ht : t.err = false) :
    (∃ w rest m, s.inbox = .command w :: rest ∧ decode w = .command (.init m)) ∨
      (∃ lost rest, s.inbox = .reset lost :: rest) := by
  obtain ⟨-, rfl⟩ | ⟨lost, rest, hi, -⟩ | ⟨w, rest, hi, hc⟩ := step_inv h
  · simp [hs] at ht
  · exact .inr ⟨lost, rest, hi⟩
  · obtain ⟨m, hd, -⟩ | ⟨c, rfl⟩ | hk := hc.err_cases
    · exact .inl ⟨w, rest, m, hi, hd⟩
    · simp at ht
    · simp [hk, hs] at ht

/-- R27: the transitions of `PHASE`, and that there is no other. -/
theorem step_phase_change {s t : State} (h : step s = .next t) (hp : t.phase ≠ s.phase) :
    (∃ lost rest, s.inbox = .reset lost :: rest ∧ t.phase = .idle) ∨
      (∃ w rest m, s.inbox = .command w :: rest ∧ decode w = .command (.init m) ∧ t.phase = .active) ∨
      (∃ w rest, s.inbox = .command w :: rest ∧ decode w = .command .finish ∧ s.phase = .active ∧ t.phase = .done) := by
  obtain ⟨-, rfl⟩ | ⟨lost, rest, hi, rfl⟩ | ⟨w, rest, hi, hc⟩ := step_inv h
  · exact absurd rfl hp
  · exact .inl ⟨lost, rest, hi, rfl⟩
  · obtain ⟨m, hd, ht⟩ | ⟨hd, hs, ht⟩ | hk := hc.phase_cases
    · exact .inr (.inl ⟨w, rest, m, hi, hd, ht⟩)
    · exact .inr (.inr ⟨w, rest, hi, hd, hs, ht⟩)
    · exact absurd hk hp

/-! ## The obligations -/

/-- Settles O22: a rejected command is `raiseErr` (`CommandCase.eq_raiseErr_of_rejected`), and the cases of a step show
that nothing else sets `ERR` and only INIT and reset clear it. -/
theorem errorFlagIsSticky : Obligations.ErrorFlagIsSticky := by
  intro s t h
  refine ⟨fun hs ht => ?_, step_err_clear h, fun w rest r hi hr hE => ?_, fun w rest hi he hw => ?_, fun m b => ?_⟩
  · obtain ⟨w, rest, c, hi, rfl⟩ := step_err_set h hs ht
    exact ⟨w, rest, errResponse c, hi, rfl, errResponse_getLsbD_seven c⟩
  · obtain ⟨c, rfl⟩ := (step_command_inv hi h).eq_raiseErr_of_rejected hr hE
    rfl
  · obtain rfl := (step_command_inv hi h).eq_raiseErr_badState_of_err he hw
    rfl
  · simp only [exec, execInit, State.createContext_setErr]

/-- Settles O24: each transition is read off the command or the reset event that makes it, and `step_phase_change` shows
that a step has no other. -/
theorem phaseTransitions : Obligations.PhaseTransitions := by
  refine ⟨⟨rfl, rfl, rfl⟩, fun s t lost rest hi h => ?_, fun m s t h => ?_, fun s t h hp he => ?_,
    fun d s t h => execUpdb_phase h, fun w s t r h hr hE => ?_, fun s t h hp => step_phase_change h hp⟩
  · obtain rfl := step_reset_inv hi h
    rfl
  · cases h
    rfl
  · cases (execFinish_accepted (s.live_iff.mpr ⟨hp, he⟩)).symm.trans h
    simp
  · obtain ⟨c, rfl⟩ := (stepCommand_inv h).eq_raiseErr_of_rejected hr hE
    rfl

end Sys2Proof.Machine
end

section
/-! SUPPORT. The byte order of a block's words (20 R64) and of the length field that FINISH leaves in `BUF` (20 R65). -/

namespace Sys2Proof.Machine

/-! ## The bytes of a word -/

/-- Byte `j` of `be64`, counted from the most significant, is its argument `j` (00_scope R11). -/
theorem extractLsb'_be64 (b0 b1 b2 b3 b4 b5 b6 b7 : Byte) (j : Fin 8) :
    (be64 b0 b1 b2 b3 b4 b5 b6 b7).extractLsb' (56 - 8 * j.val) 8 = #v[b0, b1, b2, b3, b4, b5, b6, b7][j] := by
  apply BitVec.eq_of_toNat_eq
  rw [BitVec.extractLsb'_toNat, be64_toNat, Nat.shiftRight_eq_div_pow]
  fin_cases j <;> simp <;> omega

/-- Byte `j` of the word read at byte index `a` is byte `a + j` of the block. -/
theorem extractLsb'_memRead64 (b : Block) (a : Nat) (ha : a + 8 ≤ 128) (j : Fin 8) :
    (memRead64 b a ha).extractLsb' (56 - 8 * j.val) 8 = b[a + j.val] := by
  rw [memRead64, extractLsb'_be64]
  fin_cases j <;> rfl

/-- Two words with the same eight bytes are equal. -/
theorem word_eq_of_bytes_eq {x y : Word}
    (h : ∀ j : Fin 8, x.extractLsb' (56 - 8 * j.val) 8 = y.extractLsb' (56 - 8 * j.val) 8) : x = y := by
  apply BitVec.eq_of_getLsbD_eq
  intro i hi
  have hbit := congrArg (BitVec.getLsbD · (i % 8)) (h ⟨7 - i / 8, by omega⟩)
  simpa [Nat.mod_lt, show 56 - 8 * (7 - i / 8) + i % 8 = i by omega] using hbit

/-- A field inside a field, counted from bit 0 of the outer vector. -/
theorem extractLsb'_extractLsb'_of_add_le {w lo n lo' n' : Nat} (x : BitVec w) (h : lo' + n' ≤ n) :
    (x.extractLsb' lo n).extractLsb' lo' n' = x.extractLsb' (lo + lo') n' := by
  apply BitVec.eq_of_getLsbD_eq
  intro i hi
  simp [hi, show lo' + i < n by omega, Nat.add_assoc]

/-! ## The length field -/

/-- The words of a block whose last 16 bytes are those of `len`: word 14 is its high half, word 15 its low half. -/
theorem blockWords_of_lengthField {b : Block} {len : BitCount}
    (h : ∀ j : Fin 16, b[112 + j.val] = len.extractLsb' (8 * (15 - j.val)) 8) (k : Fin 2) :
    (blockWords b)[14 + k.val] = len.extractLsb' (64 * (1 - k.val)) 64 := by
  apply word_eq_of_bytes_eq
  intro j
  have hbyte := h ⟨8 * k.val + j.val, by omega⟩
  rw [getElem_blockWords, extractLsb'_memRead64, extractLsb'_extractLsb'_of_add_le _ (by omega)]
  simpa [show 8 * (14 + k.val) + j.val = 112 + (8 * k.val + j.val) by omega,
    show 64 * (1 - k.val) + (56 - 8 * j.val) = 8 * (15 - (8 * k.val + j.val)) by omega] using hbyte

/-- Padding ends, for one block and for two, with the length field and a compression step (40 R127, steps 3 and 4). -/
theorem State.padAndCompress_eq_writeLength (s : State) :
    ∃ u : State, u.len = s.len ∧ s.padAndCompress = u.writeLength.compressBuf := by
  by_cases hi : 112 < s.fill.toNat + 1
  · refine ⟨(s.padMark.zeroFill (s.fill.toNat + 1) 128).compressBuf.zeroFill 0 112, by simp, ?_⟩
    simp only [State.padAndCompress, if_pos hi]
  · refine ⟨s.padMark.zeroFill (s.fill.toNat + 1) 112, by simp, ?_⟩
    simp only [State.padAndCompress, if_neg hi]

/-- The last 16 bytes that padding leaves in `BUF` are the counter's, most significant first (43 R198). -/
theorem State.getElem_padAndCompress_buf_lengthField (s : State) (j : Fin 16) :
    s.padAndCompress.buf[112 + j.val] = s.len.extractLsb' (8 * (15 - j.val)) 8 := by
  obtain ⟨u, hlen, hpad⟩ := s.padAndCompress_eq_writeLength
  simp only [hpad, State.compressBuf_buf]
  rw [getElem_writeLength, if_neg (by omega), hlen, show 127 - (112 + j.val) = 15 - j.val by omega]

/-! ## The obligations -/

/-- Settles O28: word `i` is the read at byte index `8 * i`, and `extractLsb'_memRead64` gives each of its bytes. -/
theorem blockWordsAreBigEndian : Obligations.BlockWordsAreBigEndian := by
  intro b i j
  rw [Fin.getElem_fin, getElem_blockWords, extractLsb'_memRead64]

/-- Settles O19: an accepted FINISH leaves in `BUF` what padding left there, whose last 16 bytes are the counter's, and
`blockWords_of_lengthField` reads them back as words. -/
theorem lengthFieldHoldsTheCounter : Obligations.LengthFieldHoldsTheCounter := by
  intro s t hp he h
  cases (execFinish_accepted (s.live_iff.mpr ⟨hp, he⟩)).symm.trans h
  have hfield := s.getElem_padAndCompress_buf_lengthField
  exact ⟨hfield, blockWords_of_lengthField hfield 0, blockWords_of_lengthField hfield 1, by simp⟩

end Sys2Proof.Machine
end

section
/-! SUPPORT. The command words (30_encoding R92 to R98): the three masked tests as ranges of the word's number, what the
decoder answers under each, and the encoder as its inverse. -/

namespace Sys2Proof

/-! ## The three tests

Each mask keeps the bits from some bit `n` up, so each test asks for one value of `w.toNat / 2 ^ n`. In this form
`omega` sees that no two tests hold of one word. -/

/-- A test under the mask of the bits from bit `n` up. -/
theorem and_allOnes_shiftLeft_eq_iff {width : Nat} (x : BitVec width) {n k : Nat} (hk : k * 2 ^ n < 2 ^ width) :
    x &&& BitVec.allOnes width <<< n = BitVec.ofNat width (k * 2 ^ n) ↔ x.toNat / 2 ^ n = k := by
  have hlt : x.toNat / 2 ^ n * 2 ^ n < 2 ^ width := (Nat.div_mul_le_self _ _).trans_lt x.isLt
  rw [← BitVec.shiftLeft_ushiftRight, ← BitVec.toNat_inj, BitVec.toNat_shiftLeft, BitVec.toNat_ushiftRight,
    Nat.shiftRight_eq_div_pow, Nat.shiftLeft_eq, BitVec.toNat_ofNat, Nat.mod_eq_of_lt hlt, Nat.mod_eq_of_lt hk]
  exact Nat.mul_left_inj (Nat.two_pow_pos n).ne'

theorem isInitWord_iff (w : CmdWord) : isInitWord w = true ↔ w &&& 0xFFFE#16 = 0x1000#16 := beq_iff_eq

theorem isUpdbWord_iff (w : CmdWord) : isUpdbWord w = true ↔ w &&& 0xFF00#16 = 0x2000#16 := beq_iff_eq

theorem isFinishWord_iff (w : CmdWord) : isFinishWord w = true ↔ w = 0x3000#16 := by
  rw [isFinishWord, beq_iff_eq, show (0xFFFF#16 : CmdWord) = BitVec.allOnes 16 from rfl, BitVec.and_allOnes]

theorem isInitWord_iff_toNat (w : CmdWord) : isInitWord w = true ↔ w.toNat / 2 = 0x800 :=
  (isInitWord_iff w).trans (and_allOnes_shiftLeft_eq_iff w (n := 1) (k := 0x800) (by decide))

theorem isUpdbWord_iff_toNat (w : CmdWord) : isUpdbWord w = true ↔ w.toNat / 256 = 0x20 :=
  (isUpdbWord_iff w).trans (and_allOnes_shiftLeft_eq_iff w (n := 8) (k := 0x20) (by decide))

theorem isFinishWord_iff_toNat (w : CmdWord) : isFinishWord w = true ↔ w.toNat = 0x3000 :=
  (isFinishWord_iff w).trans BitVec.toNat_inj.symm

theorem wellFormedWord_iff (w : CmdWord) :
    wellFormedWord w = true ↔ isInitWord w = true ∨ isUpdbWord w = true ∨ isFinishWord w = true := by
  rw [wellFormedWord, Bool.or_eq_true, Bool.or_eq_true, or_assoc]

/-- R97: the well-formed words by their numbers. -/
theorem wellFormedWord_iff_toNat (w : CmdWord) : wellFormedWord w = true ↔
    w.toNat = 0x1000 ∨ w.toNat = 0x1001 ∨ (0x2000 ≤ w.toNat ∧ w.toNat ≤ 0x20FF) ∨ w.toNat = 0x3000 := by
  rw [wellFormedWord_iff, isInitWord_iff_toNat, isUpdbWord_iff_toNat, isFinishWord_iff_toNat]
  omega

theorem isInitWord_eq_false_of_isUpdbWord {w : CmdWord} (h : isUpdbWord w = true) : isInitWord w = false := by
  rw [isUpdbWord_iff_toNat] at h
  rw [← Bool.not_eq_true, isInitWord_iff_toNat]
  omega

theorem isInitWord_eq_false_of_isFinishWord {w : CmdWord} (h : isFinishWord w = true) : isInitWord w = false := by
  rw [isFinishWord_iff_toNat] at h
  rw [← Bool.not_eq_true, isInitWord_iff_toNat]
  omega

theorem isUpdbWord_eq_false_of_isFinishWord {w : CmdWord} (h : isFinishWord w = true) : isUpdbWord w = false := by
  rw [isFinishWord_iff_toNat] at h
  rw [← Bool.not_eq_true, isUpdbWord_iff_toNat]
  omega

/-! ## The decoder

Each test alone decides, since a word that passes it fails the others. -/

theorem decode_of_isInitWord {w : CmdWord} (h : isInitWord w = true) :
    decode w = .command (.init (Mode.ofBit (w.getLsbD 0))) := by
  simp [decode, h]

theorem decode_of_isUpdbWord {w : CmdWord} (h : isUpdbWord w = true) : decode w = .command (.updb (argField w)) := by
  simp [decode, h, isInitWord_eq_false_of_isUpdbWord h]

theorem decode_of_isFinishWord {w : CmdWord} (h : isFinishWord w = true) : decode w = .command .finish := by
  simp [decode, h, isInitWord_eq_false_of_isFinishWord h, isUpdbWord_eq_false_of_isFinishWord h]

theorem decode_of_not_wellFormed {w : CmdWord} (h : wellFormedWord w = false) : decode w = .illegal (whyIllegal w) := by
  simp only [wellFormedWord, Bool.or_eq_false_iff] at h
  obtain ⟨⟨hI, hU⟩, hF⟩ := h
  simp [decode, hI, hU, hF]

/-- A word that decodes to a command is well-formed, and a well-formed word decodes to a command. -/
theorem wellFormedWord_iff_decode (w : CmdWord) : wellFormedWord w = true ↔ ∃ i, decode w = .command i := by
  constructor
  · intro h
    obtain h | h | h := (wellFormedWord_iff w).mp h
    · exact ⟨_, decode_of_isInitWord h⟩
    · exact ⟨_, decode_of_isUpdbWord h⟩
    · exact ⟨_, decode_of_isFinishWord h⟩
  · rintro ⟨i, hi⟩
    by_contra h
    cases (decode_of_not_wellFormed (Bool.eq_false_of_not_eq_true h)).symm.trans hi

/-! ## The operands -/

theorem Mode.ofBit_eq_ite (b : Bool) : Mode.ofBit b = if b then .sha512 else .sha384 := by
  cases b <;> rfl

theorem argField_eq_setWidth (w : CmdWord) : argField w = w.setWidth 8 :=
  (BitVec.setWidth_eq_extractLsb' (by decide)).symm

theorem ofBit_getLsbD_encode_init (m : Mode) : Mode.ofBit ((encode (.init m)).getLsbD 0) = m := by
  cases m <;> rfl

theorem argField_encode_updb (d : Byte) : argField (encode (.updb d)) = d := by
  rw [argField_eq_setWidth, encode]
  bv_omega

/-! ## The encoder -/

/-- R98: decoding undoes encoding. -/
theorem decode_encode (i : Instr) : decode (encode i) = .command i := by
  cases i with
  | init m =>
    obtain ⟨hI, -, -⟩ := Laws.EncodesWellFormed.init m
    rw [decode_of_isInitWord hI, ofBit_getLsbD_encode_init]
  | updb d =>
    obtain ⟨-, hU, -⟩ := Laws.EncodesWellFormed.updb d
    rw [decode_of_isUpdbWord hU, argField_encode_updb]
  | finish =>
    obtain ⟨-, -, hF⟩ := Laws.EncodesWellFormed.finish
    exact decode_of_isFinishWord hF

theorem encode_init_of_isInitWord {w : CmdWord} (h : isInitWord w = true) :
    encode (.init (Mode.ofBit (w.getLsbD 0))) = w := by
  rw [isInitWord_iff_toNat] at h
  obtain rfl | rfl : w = 0x1000#16 ∨ w = 0x1001#16 := by bv_omega
  · rfl
  · rfl

theorem encode_updb_of_isUpdbWord {w : CmdWord} (h : isUpdbWord w = true) : encode (.updb (argField w)) = w := by
  rw [isUpdbWord_iff_toNat] at h
  rw [argField_eq_setWidth, encode]
  bv_omega

/-- R98: encoding undoes decoding, on the words that decode to a command. -/
theorem encode_of_decode {w : CmdWord} {i : Instr} (h : decode w = .command i) : encode i = w := by
  obtain hw | hw | hw := (wellFormedWord_iff w).mp ((wellFormedWord_iff_decode w).mpr ⟨i, h⟩)
  · cases (decode_of_isInitWord hw).symm.trans h
    exact encode_init_of_isInitWord hw
  · cases (decode_of_isUpdbWord hw).symm.trans h
    exact encode_updb_of_isUpdbWord hw
  · cases (decode_of_isFinishWord hw).symm.trans h
    exact ((isFinishWord_iff w).mp hw).symm

/-! ## The number of well-formed words -/

/-- The numbers of the well-formed words: two for INIT, 256 for UPDB, one for FINISH. -/
def wellFormedNumbers : Finset Nat := {0x1000, 0x1001, 0x3000} ∪ Finset.Icc 0x2000 0x20FF

theorem mem_wellFormedNumbers {n : Nat} :
    n ∈ wellFormedNumbers ↔ n < 65536 ∧ wellFormedWord (BitVec.ofNat 16 n) = true := by
  simp only [wellFormedNumbers, wellFormedWord_iff_toNat, BitVec.toNat_ofNat, Finset.mem_union, Finset.mem_insert,
    Finset.mem_singleton, Finset.mem_Icc]
  omega

theorem card_wellFormedNumbers : wellFormedNumbers.card = 259 := by
  have hd : Disjoint ({0x1000, 0x1001, 0x3000} : Finset Nat) (Finset.Icc 0x2000 0x20FF) := by
    simp [Finset.disjoint_left]
  rw [wellFormedNumbers, Finset.card_union_of_disjoint hd, Nat.card_Icc]
  rfl

/-- R97: there are 259 well-formed words. -/
theorem length_filter_wellFormedWord :
    ((List.range 65536).filter fun n => wellFormedWord (BitVec.ofNat 16 n)).length = 259 := by
  have hnodup := (List.nodup_range (n := 65536)).filter fun n => wellFormedWord (BitVec.ofNat 16 n)
  have hset : ((List.range 65536).filter fun n => wellFormedWord (BitVec.ofNat 16 n)).toFinset = wellFormedNumbers := by
    ext n
    rw [mem_wellFormedNumbers, List.mem_toFinset, List.mem_filter, List.mem_range]
  rw [← List.toFinset_card_of_nodup hnodup, hset, card_wellFormedNumbers]

/-! ## The obligation on the decoder and the encoder -/

/-- Settles O2: the masked tests are the model's checks, each of which decides the decoding alone; the round trips are
`decode_encode` and `encode_of_decode`. -/
theorem decodeAndEncodeInvert : Obligations.DecodeAndEncodeInvert := by
  refine ⟨fun w => ⟨fun h => ?_, fun h => ?_, fun h => ?_, fun hI hU hF => ?_⟩, fun m => ?_, fun d => rfl, rfl,
    decode_encode, fun w i => encode_of_decode⟩
  · rw [decode_of_isInitWord ((isInitWord_iff w).mpr h), Mode.ofBit_eq_ite]
  · rw [decode_of_isUpdbWord ((isUpdbWord_iff w).mpr h), argField_eq_setWidth]
  · exact decode_of_isFinishWord ((isFinishWord_iff w).mpr h)
  · have hw : wellFormedWord w = false := by
      simp [← Bool.not_eq_true, wellFormedWord_iff, isInitWord_iff, isUpdbWord_iff, isFinishWord_iff, hI, hU, hF]
    exact ⟨_, decode_of_not_wellFormed hw⟩
  · cases m <;> rfl

end Sys2Proof

namespace Sys2Proof.Machine

/-! ## The obligations on the step -/

/-- R97: a word that is not well-formed takes ERR_ILLEGAL, in every state. -/
theorem stepCommand_of_not_wellFormed {w : CmdWord} (s : State) (h : wellFormedWord w = false) :
    stepCommand w s = .next (s.raiseErr .illegal) := by
  rw [stepCommand, decode_of_not_wellFormed h]
  rfl

/-- Settles O3: the tests as ranges of numbers give the list of words and their count; every other word is
`raiseErr .illegal`. -/
theorem wellFormedWordsAreExactlyThese : Obligations.WellFormedWordsAreExactlyThese := by
  refine ⟨fun w => ?_, fun w => ?_, length_filter_wellFormedWord, wellFormedWord_iff_decode,
    fun w s h => stepCommand_of_not_wellFormed s h⟩
  · rw [wellFormedWord_iff, isInitWord_iff, isUpdbWord_iff, isFinishWord_iff]
  · simp only [wellFormedWord_iff_toNat, ← BitVec.toNat_inj, BitVec.toNat_ofNat]

/-- 60 R233: the context is not live when it is not in ACTIVE or has failed. -/
theorem State.live_eq_false_iff (s : State) : s.live = false ↔ s.phase ≠ .active ∨ s.err = true := by
  rw [← Bool.not_eq_true, s.live_iff, not_and_or, Bool.not_eq_false]

/-- Settles O11: the cases of a command (`stepCommand_case`) are the checks in their order, and each appends its one
response. -/
theorem everyCommandGetsItsResponse : Obligations.EveryCommandGetsItsResponse := by
  intro w s
  obtain ⟨t, ht, hc⟩ := stepCommand_case w s
  have hlive (hl : s.live = true) : ¬(s.phase ≠ .active ∨ s.err = true) := by
    rwa [← s.live_eq_false_iff, Bool.not_eq_false]
  cases hc with
  | illegal why hd => exact ⟨_, 0x81#8, ht, rfl, by rw [hd], by decide⟩
  | init m hd => exact ⟨_, 0x00#8, ht, rfl, by rw [hd], by decide⟩
  | updb d hd hl hf =>
    have hfull : ¬2 ^ 128 ≤ s.len.toNat + 8 := by rwa [← s.lenFull_iff, Bool.not_eq_true]
    refine ⟨_, 0x00#8, ht, by simp, ?_, by decide⟩
    rw [hd]
    exact ((if_neg (hlive hl)).trans (if_neg hfull)).symm
  | updbFull d hd hl hf =>
    refine ⟨_, 0x83#8, ht, rfl, ?_, by decide⟩
    rw [hd]
    exact ((if_neg (hlive hl)).trans (if_pos (s.lenFull_iff.mp hf))).symm
  | finish hd hl =>
    refine ⟨_, 0x40#8, ht, by simp, ?_, by decide⟩
    rw [hd]
    exact (if_neg (hlive hl)).symm
  | notLive hd hl =>
    have hdead := s.live_eq_false_iff.mp hl
    refine ⟨_, 0x82#8, ht, rfl, ?_, by decide⟩
    obtain ⟨d, hd⟩ | hd := hd
    · rw [hd]
      exact (if_pos hdead).symm
    · rw [hd]
      exact (if_pos hdead).symm

end Sys2Proof.Machine
end

section
/-! SUPPORT. The three context commands (40_context_commands): the whole next state of INIT, UPDB and FINISH, and what
the sequence of a whole context does. The digest of a context depends on `MODE`, `H`, `LEN`, `FILL` and the pending
bytes of `BUF`; two contexts that agree on these (`State.SameContext`) go on agreeing. -/

namespace Sys2Proof.Machine

/-! ## UPDB -/

/-- R124: a byte in mid block is stored and counted. -/
theorem State.absorbByte_midBlock {s : State} (d : Byte) (hf : s.fill ≠ 127#7) :
    s.absorbByte d =
      { s with buf := s.buf.set s.fill.toNat d s.fill.isLt, len := s.len + 8#128, fill := s.fill + 1#7 } := by
  rw [← memWrite_singleton]
  exact if_neg hf

/-- R124: the last byte of a block is stored and counted, and the block is compressed. -/
theorem State.absorbByte_lastByte {s : State} (d : Byte) (hf : s.fill = 127#7) :
    s.absorbByte d =
      { s with buf := s.buf.set 127 d, len := s.len + 8#128, fill := 0#7, h := compress s.h (s.buf.set 127 d) } := by
  rw [← memWrite_singleton, show 127 = s.fill.toNat by rw [hf]; rfl]
  exact if_pos hf

theorem State.lenFull_eq_false_iff (s : State) : s.lenFull = false ↔ s.len.toNat + 8 < 2 ^ 128 := by
  rw [← Bool.not_eq_true, s.lenFull_iff, Nat.not_le]

/-! ## FINISH -/

theorem digestLength_eq_ite (m : Mode) : digestLength m = if m = .sha512 then 64 else 48 := by
  cases m <;> rfl

/-- R215 to R217: byte `j` of register `i`, most significant first, cut at the digest length. -/
theorem getElem_digestBytes (m : Mode) (r : Regs) (i j : Fin 8) :
    (digestBytes m r)[8 * i.val + j.val] =
      if 8 * i.val + j.val < (if m = .sha512 then 64 else 48) then r[i].extractLsb' (8 * (7 - j.val)) 8 else 0x00#8 := by
  have hdiv : (8 * i.val + j.val) / 8 = i.val := by omega
  have hmod : (8 * i.val + j.val) % 8 = j.val := by omega
  simp only [digestBytes, getElem_tabulate, digestLength_eq_ite, hdiv, hmod, byteBE_toNat, Fin.getElem_fin]

/-- The next state of FINISH on a live context, from the buffer and the registers that padding leaves. -/
theorem execFinish_of_padAndCompress {s : State} {b : Block} {r : Regs} (hl : s.live = true)
    (hpad : s.padAndCompress = { s with buf := b, h := r }) :
    ∃ t, execFinish s = .next t ∧
      t = { s with
        buf := b, h := r, fill := 0#7, phase := .done, dout := t.dout, responses := s.responses ++ [0x40#8] } ∧
      ∀ i j : Fin 8, t.dout[8 * i.val + j.val] =
        if 8 * i.val + j.val < (if s.mode = .sha512 then 64 else 48) then t.h[i].extractLsb' (8 * (7 - j.val)) 8
        else 0x00#8 := by
  refine ⟨_, execFinish_accepted hl, ?_, fun i j => ?_⟩
  · rw [hpad]
    rfl
  · simp only [State.respond_dout, State.respond_h, State.deliver_dout, State.deliver_h, State.padAndCompress_mode,
      getElem_digestBytes]

/-! ## A whole context -/

theorem stepCommand_encode (i : Instr) (s : State) : stepCommand (encode i) s = exec i s := by
  rw [stepCommand, decode_encode]

/-- The bytes `data` absorbed in order, each answered with OK (30 R106). -/
def State.absorbBytes (data : List Byte) (s : State) : State :=
  data.foldl (fun u d => (u.absorbByte d).respond 0x00#8) s

@[simp] theorem State.absorbBytes_nil (s : State) : s.absorbBytes [] = s := rfl

@[simp] theorem State.absorbBytes_cons (d : Byte) (ds : List Byte) (s : State) :
    s.absorbBytes (d :: ds) = ((s.absorbByte d).respond 0x00#8).absorbBytes ds := rfl

theorem State.absorbByte_respond_live (d : Byte) (r : RespWord) (s : State) :
    ((s.absorbByte d).respond r).live = s.live := by
  simp [State.live]

@[simp] theorem State.absorbBytes_live (data : List Byte) (s : State) : (s.absorbBytes data).live = s.live := by
  induction data generalizing s with
  | nil => rfl
  | cons d ds ih => exact (ih _).trans (s.absorbByte_respond_live d 0x00#8)

/-- `update(data)` on a live context whose counter has room for `data` (30 R106). -/
theorem runCommands_updateCmds {data : List Byte} {s : State} (hl : s.live = true)
    (hlen : s.len.toNat + 8 * data.length < 2 ^ 128) :
    runCommands (updateCmds data) s = .next (s.absorbBytes data) := by
  induction data generalizing s with
  | nil => rfl
  | cons d ds ih =>
    rw [List.length_cons] at hlen
    have hstep : stepCommand (encode (.updb d)) s = .next ((s.absorbByte d).respond 0x00#8) :=
      (stepCommand_encode _ s).trans (execUpdb_accepted d hl (s.lenFull_eq_false_iff.mpr (by omega)))
    have hlen' : ((s.absorbByte d).respond 0x00#8).len.toNat = s.len.toNat + 8 := by
      rw [State.respond_len, State.absorbByte_len, BitVec.toNat_add]
      exact Nat.mod_eq_of_lt (show s.len.toNat + 8 < 2 ^ 128 by omega)
    exact (runCommands_cons hstep).trans (ih ((s.absorbByte_respond_live d _).trans hl) (by omega))

/-- `hash(mode, data)` for a message that the counter admits (30 R105). -/
theorem runCommands_hashCmds {msg : List Byte} (m : Mode) (s : State) (hlen : msg.length < 2 ^ 125) :
    runCommands (hashCmds m msg) s =
      .next ((((s.createContext m).respond 0x00#8).absorbBytes msg).padAndCompress.deliver.respond 0x40#8) := by
  have hcreate : runCommands (createCmds m) s = .next ((s.createContext m).respond 0x00#8) :=
    runCommands_cons (stepCommand_encode (.init m) s)
  have hupdate : runCommands (updateCmds msg) ((s.createContext m).respond 0x00#8) =
      .next (((s.createContext m).respond 0x00#8).absorbBytes msg) :=
    runCommands_updateCmds rfl (by simp; omega)
  rw [hashCmds, List.append_assoc, runCommands_append hcreate, runCommands_append hupdate]
  have hl : (((s.createContext m).respond 0x00#8).absorbBytes msg).live = true := by
    rw [State.absorbBytes_live]
    rfl
  exact runCommands_cons ((stepCommand_encode .finish _).trans (execFinish_accepted hl))

/-! ## Two contexts that agree -/

/-- The two contexts agree on all that their digests depend on. -/
structure State.SameContext (s s' : State) : Prop where
  mode_eq : s.mode = s'.mode
  h_eq : s.h = s'.h
  len_eq : s.len = s'.len
  fill_eq : s.fill = s'.fill
  /-- The bytes of `BUF` at and above `FILL` are stale and may differ. -/
  pending : ∀ j (hj : j < 128), j < s.fill.toNat → s.buf[j] = s'.buf[j]

theorem State.SameContext.respond {s s' : State} (hs : s.SameContext s') (r : RespWord) :
    (s.respond r).SameContext (s'.respond r) :=
  ⟨hs.mode_eq, hs.h_eq, hs.len_eq, hs.fill_eq, hs.pending⟩

theorem State.sameContext_createContext (m : Mode) (s s' : State) :
    (s.createContext m).SameContext (s'.createContext m) :=
  ⟨rfl, rfl, rfl, rfl, fun j _ hj => absurd hj (Nat.not_lt_zero j)⟩

theorem State.SameContext.getElem_memWrite {s s' : State} (hs : s.SameContext s') (d : Byte) {j : Nat} (hj : j < 128)
    (hle : j ≤ s.fill.toNat) : (memWrite s.fill.toNat [d] s.buf)[j] = (memWrite s'.fill.toNat [d] s'.buf)[j] := by
  rw [← hs.fill_eq]
  obtain hlt | rfl := Nat.lt_or_eq_of_le hle
  · rw [getElem_memWrite_before hj hlt, getElem_memWrite_before hj hlt, hs.pending j hj hlt]
  · rw [getElem_memWrite_inside hj (Nat.le_refl _) (by simp), getElem_memWrite_inside hj (Nat.le_refl _) (by simp)]

theorem State.SameContext.absorbByte {s s' : State} (hs : s.SameContext s') (d : Byte) :
    (s.absorbByte d).SameContext (s'.absorbByte d) where
  mode_eq := by simp [hs.mode_eq]
  len_eq := by simp [hs.len_eq]
  fill_eq := by simp only [State.absorbByte_fill, hs.fill_eq]
  h_eq := by
    rw [State.absorbByte_h, State.absorbByte_h, ← hs.h_eq, ← hs.fill_eq]
    split
    · next hfull =>
      have hbuf : memWrite s.fill.toNat [d] s.buf = memWrite s'.fill.toNat [d] s'.buf :=
        Vector.ext fun j hj => hs.getElem_memWrite d hj (by bv_omega)
      rw [hbuf, hs.fill_eq]
    · rfl
  pending j hj hlt := by
    rw [State.absorbByte_fill] at hlt
    simp only [State.absorbByte_buf]
    refine hs.getElem_memWrite d hj ?_
    split at hlt
    · exact absurd hlt (Nat.not_lt_zero j)
    · bv_omega

theorem State.SameContext.absorbBytes {s s' : State} (hs : s.SameContext s') (data : List Byte) :
    (s.absorbBytes data).SameContext (s'.absorbBytes data) := by
  induction data generalizing s s' with
  | nil => exact hs
  | cons d ds ih => exact ih ((hs.absorbByte d).respond 0x00#8)

/-- The mark and the zeros up to `hi` overwrite every stale byte below `hi`. -/
theorem State.SameContext.getElem_zeroFill_padMark {s s' : State} (hs : s.SameContext s') {hi j : Nat} (hj : j < 128)
    (hlt : j < hi) : (s.padMark.zeroFill (s.fill.toNat + 1) hi).buf[j] =
      (s'.padMark.zeroFill (s'.fill.toNat + 1) hi).buf[j] := by
  rw [getElem_zeroFill, getElem_zeroFill, ← hs.fill_eq]
  split
  · rfl
  · exact hs.getElem_memWrite 0x80#8 hj (by omega)

/-- The length field replaces the last 16 bytes of the block. -/
theorem State.writeLength_buf_congr {u u' : State} (hlen : u.len = u'.len)
    (hbuf : ∀ j (hj : j < 128), j < 112 → u.buf[j] = u'.buf[j]) : u.writeLength.buf = u'.writeLength.buf := by
  apply Vector.ext
  intro j hj
  rw [getElem_writeLength _ hj, getElem_writeLength _ hj, hlen]
  split
  · next h => exact hbuf j hj h
  · rfl

/-- Padding overwrites the stale bytes, so the registers after it are equal. -/
theorem State.SameContext.padAndCompress_h {s s' : State} (hs : s.SameContext s') :
    s.padAndCompress.h = s'.padAndCompress.h := by
  by_cases hi : 112 < s.fill.toNat + 1
  · have hfirst : (s.padMark.zeroFill (s.fill.toNat + 1) 128).buf = (s'.padMark.zeroFill (s'.fill.toNat + 1) 128).buf :=
      Vector.ext fun j hj => hs.getElem_zeroFill_padMark hj hj
    have hlast : ((s.padMark.zeroFill (s.fill.toNat + 1) 128).compressBuf.zeroFill 0 112).writeLength.buf =
        ((s'.padMark.zeroFill (s'.fill.toNat + 1) 128).compressBuf.zeroFill 0 112).writeLength.buf := by
      refine State.writeLength_buf_congr hs.len_eq fun j hj h => ?_
      rw [getElem_zeroFill, getElem_zeroFill, if_pos (by omega), if_pos (by omega)]
    simp only [State.padAndCompress, if_pos hi, if_pos (hs.fill_eq ▸ hi), State.compressBuf_h, State.writeLength_h,
      State.zeroFill_h, State.padMark_h, hfirst, hlast, hs.h_eq]
  · have hblock : (s.padMark.zeroFill (s.fill.toNat + 1) 112).writeLength.buf =
        (s'.padMark.zeroFill (s'.fill.toNat + 1) 112).writeLength.buf :=
      State.writeLength_buf_congr hs.len_eq fun j hj h => hs.getElem_zeroFill_padMark hj h
    simp only [State.padAndCompress, if_neg hi, if_neg (hs.fill_eq ▸ hi), State.compressBuf_h, State.writeLength_h,
      State.zeroFill_h, State.padMark_h, hblock, hs.h_eq]

/-! ## The obligations -/

/-- Settles O12: the state is that of `createContext`, whose tables are those written out. -/
theorem initCreatesContext : Obligations.InitCreatesContext := by
  refine ⟨fun m s => ?_, ?_⟩
  · cases m with
    | sha384 => rfl
    | sha512 => rfl
  · exact ⟨_, stepCommand_encode (.init .sha512) State.reset, rfl, rfl, rfl, rfl, rfl⟩

/-- Settles O13: the checks of UPDB in their order, and the two cases of `absorbByte`. -/
theorem updbAbsorbsOneByte : Obligations.UpdbAbsorbsOneByte := by
  refine fun d s => ⟨fun hp he hlen hf => ?_, fun hp he hlen hf => ?_, fun hd => ?_, fun hp he hlen => ?_⟩
  · have h := execUpdb_accepted d (s.live_iff.mpr ⟨hp, he⟩) (s.lenFull_eq_false_iff.mpr hlen)
    rwa [State.absorbByte_midBlock d hf] at h
  · have h := execUpdb_accepted d (s.live_iff.mpr ⟨hp, he⟩) (s.lenFull_eq_false_iff.mpr hlen)
    rwa [State.absorbByte_lastByte d hf] at h
  · exact execUpdb_notLive d (s.live_eq_false_iff.mpr hd)
  · have h := execUpdb_full d (s.live_iff.mpr ⟨hp, he⟩) (s.lenFull_iff.mpr hlen)
    rwa [State.raiseErr, he] at h

/-- Settles O16: `padAndCompress_oneBlock` and `padAndCompress_twoBlocks` name the padded blocks, and
`execFinish_of_padAndCompress` delivers. -/
theorem finishPadsAndDelivers : Obligations.FinishPadsAndDelivers := by
  refine fun s => ⟨fun hp he hf b hb => ?_, fun hp he hf b1 b2 hb1 hb2 => ?_, fun hd => ?_⟩
  · have hpad := padAndCompress_oneBlock hf fun j hj => hb ⟨j, hj⟩
    exact execFinish_of_padAndCompress (s.live_iff.mpr ⟨hp, he⟩) hpad
  · have hpad := padAndCompress_twoBlocks hf (fun j hj => hb1 ⟨j, hj⟩) (fun j hj => hb2 ⟨j, hj⟩)
    exact execFinish_of_padAndCompress (s.live_iff.mpr ⟨hp, he⟩) hpad
  · exact execFinish_notLive (s.live_eq_false_iff.mpr hd)

/-- Settles O43: INIT makes the two contexts agree, each byte keeps them so, and the message fits the counter, so both
runs reach FINISH and its registers are equal. -/
theorem digestIsDeterministic : Obligations.DigestIsDeterministic := by
  intro m msg s s' t t' hlen ht ht'
  have hs := ((State.sameContext_createContext m s s').respond 0x00#8).absorbBytes msg
  cases (runCommands_hashCmds m s hlen).symm.trans ht
  cases (runCommands_hashCmds m s' hlen).symm.trans ht'
  simp only [State.respond_dout, State.deliver_dout, State.padAndCompress_mode, hs.padAndCompress_h, hs.mode_eq]

end Sys2Proof.Machine
end

section
/-! SUPPORT and PROOFS of the message schedule (41_message_schedule): its words by their recurrence (R144, R145), and
the 16-word window that holds the schedule's latest words in place of the 80-word array (R147). -/

namespace Sys2Proof.Machine

/-! ## The words of the schedule -/

theorem smallSigma0_eq_rotateRight (x : Word) :
    smallSigma0 x = x.rotateRight 1 ^^^ x.rotateRight 8 ^^^ x >>> 7 := by
  rw [smallSigma0, shr, rotr_eq_rotateRight 1 x (by decide), rotr_eq_rotateRight 8 x (by decide)]

theorem smallSigma1_eq_rotateRight (x : Word) :
    smallSigma1 x = x.rotateRight 19 ^^^ x.rotateRight 61 ^^^ x >>> 6 := by
  rw [smallSigma1, shr, rotr_eq_rotateRight 19 x (by decide), rotr_eq_rotateRight 61 x (by decide)]

/-- The first 16 words (R144). -/
theorem getElem_schedule_of_lt (b : Block) {t : Nat} (ht : t < 16) : (schedule b)[t] = (blockWords b)[t] :=
  getElem_schedule b (Nat.zero_le 64) ht

/-- The other 64 words (R145): word `t` is pushed onto `scheduleUpTo b (t - 16)`, which holds every earlier word. -/
theorem getElem_schedule_of_le (b : Block) {t : Nat} (lo : 16 ≤ t) (hi : t < 80) :
    (schedule b)[t] = smallSigma1 (schedule b)[t - 2] + (schedule b)[t - 7] + smallSigma0 (schedule b)[t - 15]
      + (schedule b)[t - 16] := by
  obtain ⟨n, rfl⟩ := Nat.exists_eq_add_of_le lo
  have hpush : (schedule b)[16 + n] = (scheduleUpTo b (n + 1))[16 + n] :=
    getElem_schedule b (by omega) (Nat.lt_succ_self (16 + n))
  have hearlier {j : Nat} (hj : j < 16 + n) : (scheduleUpTo b n)[j] = (schedule b)[j] :=
    (getElem_schedule b (by omega) hj).symm
  simp only [hpush, scheduleUpTo_succ, Vector.getElem_push_eq, hearlier, show 16 + n - 2 = n + 14 by omega,
    show 16 + n - 7 = n + 9 by omega, show 16 + n - 15 = n + 1 by omega, Nat.add_sub_cancel_left]

/-! ## The window -/

/-- `r` is the window of the schedule `w` after rounds `0 .. n-1`: a word that is loaded or derived, and not replaced
yet, stands at its index modulo 16 (R147). These are words `0 .. 15` for `n ≤ 16`, then words `n-16 .. n-1`. -/
def WindowHolds (w : Vector Word 80) (n : Nat) (r : Vector Word 16) : Prop :=
  ∀ (u : Nat) (hu : u < 80), u < max 16 n → n ≤ u + 16 → r[u % 16] = w[u]

/-- The window is loaded with the block's words. -/
theorem windowHolds_blockWords (b : Block) : WindowHolds (schedule b) 0 (blockWords b) := by
  intro u hu hlt _
  have hu16 : u < 16 := by omega
  simp only [Nat.mod_eq_of_lt hu16, getElem_schedule_of_lt b hu16]

theorem windowAdvance_of_lt {t : Nat} (ht : t < 16) (r : Vector Word 16) : windowAdvance t r = r :=
  if_neg (Nat.not_le_of_lt ht)

/-- What round `t` writes into the window is schedule word `t`: the four words of its recurrence are still there, word
`t - 16` at the index that is written, as `(t-16) mod 16 = t mod 16` (R147). -/
theorem WindowHolds.windowAdvance_eq_set {b : Block} {t : Nat} {r : Vector Word 16}
    (h : WindowHolds (schedule b) t r) (lo : 16 ≤ t) (hi : t < 80) :
    windowAdvance t r = r.set (t % 16) (schedule b)[t] := by
  have hheld (k : Nat) (hk : 0 < k) (hk16 : k ≤ 16) : r[(t - k) % 16] = (schedule b)[t - k] :=
    h (t - k) (by omega) (by omega) (by omega)
  have hold : r[t % 16] = (schedule b)[t - 16] := by
    simpa only [← Nat.mod_eq_sub_mod lo] using hheld 16 (by decide) (by decide)
  rw [windowAdvance, if_pos lo, getElem_schedule_of_le b lo hi, hold, hheld 2 (by decide) (by decide),
    hheld 7 (by decide) (by decide), hheld 15 (by decide) (by decide)]

/-- The invariant of the window: a round keeps it. -/
theorem WindowHolds.advance {b : Block} {t : Nat} {r : Vector Word 16}
    (h : WindowHolds (schedule b) t r) (hi : t < 80) : WindowHolds (schedule b) (t + 1) (windowAdvance t r) := by
  intro u hu hlt hle
  by_cases lo : 16 ≤ t
  · simp only [h.windowAdvance_eq_set lo hi, Vector.getElem_set]
    split
    · next heq =>
      obtain rfl : t = u := by omega
      rfl
    · exact h u hu (by omega) (by omega)
  · simp only [windowAdvance_of_lt (Nat.lt_of_not_le lo)]
    exact h u hu (by omega) (by omega)

/-- After round `t` the window holds the word of that round. -/
theorem WindowHolds.getElem_mod {w : Vector Word 80} {t : Nat} {r : Vector Word 16} (h : WindowHolds w (t + 1) r)
    (ht : t < 80) : r[t % 16] = w[t] :=
  h t ht (by omega) (by omega)

/-! ## The rounds in window form -/

/-- The assignments run from `h` up to `a`, so each still reads the old value of the register before it (42 R177). -/
theorem sequentialRound_eq_roundStep (k w : Word) (x : Working) : sequentialRound k w x = roundStep k w x := rfl

theorem windowRounds_succ_fst (b : Block) (x : Working) (n : Nat) (hn : n + 1 ≤ 80) :
    (windowRounds b x (n + 1) hn).1 = windowAdvance n (windowRounds b x n (Nat.le_of_succ_le hn)).1 := rfl

/-- A round in window form reads its schedule word from the window it has just advanced. -/
theorem windowRounds_succ_snd (b : Block) (x : Working) (n : Nat) (hn : n + 1 ≤ 80) :
    (windowRounds b x (n + 1) hn).2 = roundStep roundConstants[n] (windowRounds b x (n + 1) hn).1[n % 16]
      (windowRounds b x n (Nat.le_of_succ_le hn)).2 :=
  sequentialRound_eq_roundStep _ _ _

theorem windowHolds_windowRounds (b : Block) (x : Working) (n : Nat) (hn : n ≤ 80) :
    WindowHolds (schedule b) n (windowRounds b x n hn).1 := by
  induction n with
  | zero => exact windowHolds_blockWords b
  | succ n ih => exact (ih (Nat.le_of_succ_le hn)).advance hn

theorem getElem_windowRounds (b : Block) (x : Working) {t : Nat} (ht : t < 80) :
    (windowRounds b x (t + 1) ht).1[t % 16] = (schedule b)[t] :=
  (windowHolds_windowRounds b x (t + 1) ht).getElem_mod ht

theorem windowRounds_snd_eq_rounds (b : Block) (x : Working) (n : Nat) (hn : n ≤ 80) :
    (windowRounds b x n hn).2 = rounds (schedule b) x n hn := by
  induction n with
  | zero => rfl
  | succ n ih => rw [windowRounds_succ_snd, getElem_windowRounds, ih, rounds]

theorem windowCompress_eq_compress (r : Regs) (b : Block) : windowCompress r b = compress r b := by
  rw [windowCompress, windowRounds_snd_eq_rounds, compress]

/-! ## The obligations -/

/-- Settles O29: the words of `getElem_schedule_of_lt` and `getElem_schedule_of_le`, the rotations as the library's. -/
theorem scheduleRecurrence : Obligations.ScheduleRecurrence := by
  refine fun b => ⟨fun t => getElem_schedule_of_lt b t.isLt, fun t lo hi => ?_⟩
  rw [getElem_schedule_of_le b lo hi, smallSigma0_eq_rotateRight, smallSigma1_eq_rotateRight]

/-- Settles O32: every round keeps the window's invariant (`windowHolds_windowRounds`), so it runs on the word of the
schedule, and by induction the working registers are the same after each. -/
theorem windowFormComputesTheSame : Obligations.WindowFormComputesTheSame :=
  ⟨fun b x _ ht => getElem_windowRounds b x ht, windowCompress_eq_compress⟩

end Sys2Proof.Machine
end

section
/-! SUPPORT and PROOFS of the compression step (42_compression): rotation and shift as operations on bits and on numbers
(R162, R163), the round functions over them (R165 to R168), and the 80 rounds as one fold (R177, R178). -/

namespace Sys2Proof.Machine

/-! ## Rotation and shift -/

theorem shr_toNat (n : Nat) (x : Word) : (shr n x).toNat = x.toNat / 2 ^ n := by
  rw [shr, BitVec.toNat_ushiftRight, Nat.shiftRight_eq_div_pow]

theorem getLsbD_shr (n : Nat) (x : Word) (i : Nat) :
    (shr n x).getLsbD i = (decide (i + n ≤ 63) && x.getLsbD (i + n)) := by
  rw [shr, BitVec.getLsbD_ushiftRight, Nat.add_comm n i]
  by_cases h : i + n ≤ 63
  · simp [h]
  · simp [h, BitVec.getLsbD_of_ge x (i + n) (by omega)]

/-- The bits that leave at the bottom enter again at the top. -/
theorem getLsbD_rotr {n : Nat} (hn : n < 64) (x : Word) {i : Nat} (hi : i < 64) :
    (rotr n x).getLsbD i = x.getLsbD ((i + n) % 64) := by
  rw [rotr_eq_rotateRight n x hn, BitVec.getLsbD_rotateRight, Nat.mod_eq_of_lt hn]
  by_cases h : i < 64 - n
  · simp [h, show (i + n) % 64 = n + i by omega]
  · simp [h, hi, show (i + n) % 64 = i - (64 - n) by omega]

/-- The two parts of a rotation have no bit in common, so their `OR` (R162) is their sum. -/
theorem rotr_eq_add {n : Nat} (hn : n ≤ 64) (x : Word) : rotr n x = shr n x + x <<< (64 - n) := by
  refine (BitVec.add_eq_or_of_and_eq_zero _ _ (BitVec.eq_of_getLsbD_eq fun i hi => ?_)).symm
  rw [BitVec.getLsbD_and, getLsbD_shr, BitVec.getLsbD_shiftLeft, BitVec.getLsbD_zero]
  by_cases h : i < 64 - n
  · simp [h]
  · simp [show ¬ i + n ≤ 63 by omega]

theorem rotr_toNat {n : Nat} (hn : n ≤ 64) (x : Word) :
    (rotr n x).toNat = (x.toNat / 2 ^ n + x.toNat * 2 ^ (64 - n)) % 2 ^ 64 := by
  rw [rotr_eq_add hn, BitVec.toNat_add, shr_toNat, BitVec.toNat_shiftLeft, Nat.shiftLeft_eq, Nat.add_mod_mod]

/-! ## The round functions -/

theorem bigSigma0_eq_rotateRight (x : Word) :
    bigSigma0 x = x.rotateRight 28 ^^^ x.rotateRight 34 ^^^ x.rotateRight 39 := by
  rw [bigSigma0, rotr_eq_rotateRight 28 x (by decide), rotr_eq_rotateRight 34 x (by decide),
    rotr_eq_rotateRight 39 x (by decide)]

theorem bigSigma1_eq_rotateRight (x : Word) :
    bigSigma1 x = x.rotateRight 14 ^^^ x.rotateRight 18 ^^^ x.rotateRight 41 := by
  rw [bigSigma1, rotr_eq_rotateRight 14 x (by decide), rotr_eq_rotateRight 18 x (by decide),
    rotr_eq_rotateRight 41 x (by decide)]

/-- `Ch` selects: `NOT64 x` has no bit past 63, but there `z` has none either. -/
theorem getLsbD_ch (x y z : Word) (i : Nat) :
    (ch x y z).getLsbD i = (if x.getLsbD i then y.getLsbD i else z.getLsbD i) := by
  simp only [ch, BitVec.getLsbD_xor, BitVec.getLsbD_and, BitVec.getLsbD_not]
  by_cases hi : i < 64
  · cases x.getLsbD i <;> simp [hi]
  · simp [BitVec.getLsbD_of_ge _ i (Nat.le_of_not_lt hi)]

/-- `Maj` is the majority: of its three `AND` terms one or three are 1 where at least two inputs are, else none, so
their `XOR` is their `OR`. -/
theorem getLsbD_maj (x y z : Word) (i : Nat) :
    (maj x y z).getLsbD i =
      (x.getLsbD i && y.getLsbD i || x.getLsbD i && z.getLsbD i || y.getLsbD i && z.getLsbD i) := by
  simp only [maj, BitVec.getLsbD_xor, BitVec.getLsbD_and]
  cases x.getLsbD i <;> cases y.getLsbD i <;> simp

/-! ## The rounds -/

/-- The rounds `0 .. n-1` in increasing order are a fold, the last round outermost (R178). -/
theorem rounds_eq_foldl (w : Vector Word 80) (x : Working) (n : Nat) (hn : n ≤ 80) :
    rounds w x n hn = (List.finRange n).foldl
      (fun x t => roundStep (roundConstants[t.val]'(by omega)) (w[t.val]'(by omega)) x) x := by
  induction n with
  | zero => rfl
  | succ n ih =>
    rw [rounds, ih, List.finRange_succ_last, List.foldl_append, List.foldl_map]
    rfl

/-- A round with its functions written out (R165 to R168, R177). -/
theorem roundStep_eq (k w : Word) (x : Working) :
    roundStep k w x =
      let t1 := x.h + (x.e.rotateRight 14 ^^^ x.e.rotateRight 18 ^^^ x.e.rotateRight 41)
        + ((x.e &&& x.f) ^^^ (~~~x.e &&& x.g)) + k + w
      let t2 := (x.a.rotateRight 28 ^^^ x.a.rotateRight 34 ^^^ x.a.rotateRight 39)
        + ((x.a &&& x.b) ^^^ (x.a &&& x.c) ^^^ (x.b &&& x.c))
      { a := t1 + t2, b := x.a, c := x.b, d := x.c, e := x.d + t1, f := x.e, g := x.f, h := x.g } := by
  rw [roundStep, roundT1, roundT2, bigSigma0_eq_rotateRight, bigSigma1_eq_rotateRight, ch, maj]

/-! ## The obligations -/

/-- Settles O26: the laws of `rotr` and `shr`. -/
theorem rotateAndShiftMoveBits : Obligations.RotateAndShiftMoveBits :=
  fun n x _ hn => ⟨fun _ hi => getLsbD_rotr hn x hi, rotr_toNat hn.le x, shr_toNat n x, getLsbD_shr n x⟩

/-- Settles O31: the rounds are a fold (`rounds_eq_foldl`), each of them written out by `roundStep_eq`. -/
theorem compressIsEightyRounds : Obligations.CompressIsEightyRounds := by
  intro r b
  simp only [compress, rounds_eq_foldl, roundStep_eq]
  rfl

/-- Settles O27: the sigmas as rotations, the selections bit by bit. -/
theorem roundFunctions : Obligations.RoundFunctions :=
  ⟨fun x => ⟨bigSigma0_eq_rotateRight x, bigSigma1_eq_rotateRight x⟩, getLsbD_ch, getLsbD_maj⟩

end Sys2Proof.Machine
end

section
/-! SUPPORT and PROOFS of the counter's limit (43 R192, R195): the accepted UPDB counts without wrapping, and the
counter is full for one message length alone. -/

namespace Sys2Proof.Machine

/-- R195: a live context at the counter's limit rejects the byte, and only the error state changes. -/
theorem execUpdb_atLimit {s : State} (d : Byte) (hp : s.phase = .active) (he : s.err = false)
    (hfull : 2 ^ 128 ≤ s.len.toNat + 8) :
    execUpdb d s = .next { s with err := true, ecode := .length, responses := s.responses ++ [0x83#8] } := by
  obtain ⟨-, -, -, hlimit⟩ := updbAbsorbsOneByte d s
  exact hlimit hp he hfull

/-- R192: below the limit the addition of 8 does not wrap. -/
theorem State.absorbByte_len_toNat {s : State} (d : Byte) (hroom : s.len.toNat + 8 < 2 ^ 128) :
    (s.absorbByte d).len.toNat = s.len.toNat + 8 := by
  rw [State.absorbByte_len, BitVec.toNat_add]
  exact Nat.mod_eq_of_lt hroom

/-- R195: `2 ^ 128` is a multiple of 8, so a counter that counts whole bytes stops exactly 8 below it. -/
theorem State.atLimit_iff_of_dvd {s : State} (h8 : 8 ∣ s.len.toNat) :
    s.len.toNat + 8 ≥ 2 ^ 128 ↔ s.len.toNat = 2 ^ 128 - 8 := by
  have hlt : s.len.toNat < 2 ^ 128 := s.len.isLt
  omega

/-- R195: the largest message has `2 ^ 125 - 1` bytes, and the counter is full exactly after it. -/
theorem State.Absorbed.atLimit_iff {msg : List Byte} {s : State} (ha : s.Absorbed msg) :
    2 ^ 128 ≤ s.len.toNat + 8 ↔ msg.length = 2 ^ 125 - 1 := by
  have hlen := ha.len_eq
  have hlt := ha.length_lt
  omega

/-- Settles O14: a UPDB at the limit is `execUpdb_atLimit`; a context that absorbed `msg` is at the limit exactly for
the longest message (`Absorbed.atLimit_iff`), and below it the byte is counted without wrapping. -/
theorem counterLimitRejectsUpdb : Obligations.CounterLimitRejectsUpdb := by
  refine ⟨fun d s => execUpdb_atLimit d, fun s => State.atLimit_iff_of_dvd, fun msg d s hp he ha => ?_⟩
  by_cases hmax : msg.length = 2 ^ 125 - 1
  · exact ⟨_, execUpdb_atLimit d hp he (ha.atLimit_iff.mpr hmax), fun _ => rfl, fun hne => absurd hmax hne⟩
  · have hroom : s.len.toNat + 8 < 2 ^ 128 := Nat.not_le.mp (mt ha.atLimit_iff.mp hmax)
    have hlen : (s.absorbByte d).len.toNat = 8 * (msg.length + 1) := by
      rw [State.absorbByte_len_toNat d hroom, ha.len_eq, Nat.mul_add_one]
    exact ⟨_, execUpdb_accepted d (s.live_iff.mpr ⟨hp, he⟩) (s.lenFull_eq_false_iff.mpr hroom),
      fun h => absurd h hmax, fun _ => ⟨by simp [he], hlen, by simp⟩⟩

end Sys2Proof.Machine
end

section
/-! SUPPORT and PROOF of the output serialiser (44 R215, R217): the concatenation of the registers' bytes, indexed by
register and byte. -/

namespace Sys2Proof.Machine

/-- In a concatenation of pieces of one length `n`, index `n * i + j` is index `j` of piece `i`. -/
theorem getElem?_flatMap_of_length_eq {α β : Type} {f : α → List β} {n : Nat} (hlen : ∀ a, (f a).length = n)
    (xs : List α) (i : Nat) {j : Nat} (hj : j < n) :
    (xs.flatMap f)[n * i + j]? = xs[i]?.bind fun a => (f a)[j]? := by
  induction xs generalizing i with
  | nil => simp
  | cons x xs ih =>
    rw [List.flatMap_cons]
    cases i with
    | zero =>
      have hfirst : n * 0 + j < (f x).length := by rw [hlen]; omega
      rw [List.getElem?_append_left hfirst]
      simp
    | succ i =>
      have hrest : n * (i + 1) + j = n + (n * i + j) := by rw [Nat.mul_succ]; omega
      rw [hrest, List.getElem?_append_right (by rw [hlen]; omega), hlen, Nat.add_sub_cancel_left, ih,
        List.getElem?_cons_succ]

/-- R215: byte `8 * i + j` of the serialised registers is byte `j` of register `i`, the most significant first. -/
theorem getElem?_flatMap_bytesBE (r : Regs) (i j : Fin 8) :
    ((List.finRange 8).flatMap fun i => bytesBE 8 r[i].toNat)[8 * i.val + j.val]? =
      some (r[i].extractLsb' (56 - 8 * j.val) 8) := by
  have hbyte : (bytesBE 8 r[i].toNat)[j.val]? = some (r[i].extractLsb' (56 - 8 * j.val) 8) := by
    rw [List.getElem?_eq_getElem (by simp), getElem_bytesBE, byteBE_toNat,
      show 8 * (8 - 1 - j.val) = 56 - 8 * j.val by omega]
  rw [getElem?_flatMap_of_length_eq (fun _ => length_bytesBE ..) _ _ j.isLt]
  simpa using hbyte

/-- Settles O18: `getElem?_flatMap_bytesBE` reads the serialised registers, `getElem_digestBytes` cuts them, and an
accepted FINISH delivers from the registers that padding leaves. -/
theorem digestBytesAreBigEndianAndCut : Obligations.DigestBytesAreBigEndianAndCut := by
  refine ⟨fun m r i j => ⟨getElem?_flatMap_bytesBE r i j, ?_⟩, fun s t hp he h => ?_⟩
  · rw [getElem_digestBytes, Nat.mul_sub]
    cases m with
    | sha384 => rfl
    | sha512 => rfl
  · cases (execFinish_accepted (s.live_iff.mpr ⟨hp, he⟩)).symm.trans h
    simp only [State.respond_dout, State.respond_h, State.deliver_dout, State.deliver_h, State.padAndCompress_mode]

end Sys2Proof.Machine
end

section
/-! SUPPORT and PROOFS of the exceptions (60_exceptions R232 to R239): which words are illegal, and what a rejected
command leaves unchanged. Every rejection is `State.raiseErr`; on a failed context that is only a response. -/

namespace Sys2Proof

/-! ## The illegal words by their fields -/

/-- A field of a word holds `v` when its bits, as a number, are `v`. -/
theorem extractLsb'_eq_iff_toNat {width : Nat} (x : BitVec width) (start len : Nat) (v : BitVec len) :
    x.extractLsb' start len = v ↔ x.toNat / 2 ^ start % 2 ^ len = v.toNat := by
  rw [← BitVec.toNat_inj, BitVec.extractLsb'_toNat, Nat.shiftRight_eq_div_pow]

theorem isInitWord_iff_fields (w : CmdWord) : isInitWord w = true ↔
    w.extractLsb' 12 4 = 1#4 ∧ w.extractLsb' 8 4 = 0#4 ∧ w.extractLsb' 1 7 = 0#7 := by
  simp only [isInitWord_iff_toNat, extractLsb'_eq_iff_toNat, BitVec.toNat_ofNat]
  omega

theorem isUpdbWord_iff_fields (w : CmdWord) : isUpdbWord w = true ↔
    w.extractLsb' 12 4 = 2#4 ∧ w.extractLsb' 8 4 = 0#4 := by
  simp only [isUpdbWord_iff_toNat, extractLsb'_eq_iff_toNat, BitVec.toNat_ofNat]
  omega

theorem isFinishWord_iff_fields (w : CmdWord) : isFinishWord w = true ↔
    w.extractLsb' 12 4 = 3#4 ∧ w.extractLsb' 8 4 = 0#4 ∧ w.extractLsb' 0 8 = 0#8 := by
  simp only [isFinishWord_iff_toNat, extractLsb'_eq_iff_toNat, BitVec.toNat_ofNat]
  omega

/-- R232: a word is well-formed when its opcode is one of three, its reserved field is zero, and its argument is one
that the opcode admits. -/
theorem wellFormedWord_iff_fields (w : CmdWord) : wellFormedWord w = true ↔
    (w.extractLsb' 12 4 = 1#4 ∨ w.extractLsb' 12 4 = 2#4 ∨ w.extractLsb' 12 4 = 3#4) ∧
      w.extractLsb' 8 4 = 0#4 ∧ (w.extractLsb' 12 4 = 1#4 → w.extractLsb' 1 7 = 0#7) ∧
      (w.extractLsb' 12 4 = 3#4 → w.extractLsb' 0 8 = 0#8) := by
  rw [wellFormedWord_iff, isInitWord_iff_fields, isUpdbWord_iff_fields, isFinishWord_iff_fields]
  constructor
  · rintro (⟨hop, hrsv, harg⟩ | ⟨hop, hrsv⟩ | ⟨hop, hrsv, harg⟩)
    · simp [hop, hrsv, harg]
    · simp [hop, hrsv]
    · simp [hop, hrsv, harg]
  · rintro ⟨hop | hop | hop, hrsv, hinit, hfinish⟩
    · exact .inl ⟨hop, hrsv, hinit hop⟩
    · exact .inr (.inl ⟨hop, hrsv⟩)
    · exact .inr (.inr ⟨hop, hrsv, hfinish hop⟩)

/-- The illegal words are those that are not well-formed. -/
theorem decode_illegal_iff (w : CmdWord) : (∃ why, decode w = .illegal why) ↔ wellFormedWord w = false := by
  refine ⟨fun ⟨why, hd⟩ => ?_, fun h => ⟨_, decode_of_not_wellFormed h⟩⟩
  rw [← Bool.not_eq_true, wellFormedWord_iff_decode]
  rintro ⟨i, hi⟩
  cases hd.symm.trans hi

end Sys2Proof

namespace Sys2Proof.Machine

/-! ## One rejected command -/

/-- A step that takes a command word answers it, with the word gone from the list. -/
theorem step_command {s : State} {w : CmdWord} {rest : List HostInput} (hi : s.inbox = .command w :: rest) :
    step s = stepCommand w { s with inbox := rest } := by
  simp only [step, State.popInput, hi, List.tail_cons]

theorem stepCommand_of_illegal {w : CmdWord} {why : Illegal} (s : State) (hd : decode w = .illegal why) :
    stepCommand w s = .next (s.raiseErr .illegal) :=
  stepCommand_of_not_wellFormed s ((decode_illegal_iff w).mp ⟨why, hd⟩)

theorem code_firstError (err : Bool) (old c : ErrCode) :
    (firstError err old c).code = if err then old.code else c.code :=
  apply_ite ErrCode.code (err = true) old c

/-- R100: the low two bits of an error response are the error's code. -/
theorem extractLsb'_errResponse (c : ErrCode) : (errResponse c).extractLsb' 0 2 = c.code := by
  cases c <;> rfl

/-- R239: on a failed context a further error changes neither `ERR` nor `ECODE`; it is only answered. -/
theorem State.raiseErr_of_err {s : State} (he : s.err = true) (c : ErrCode) :
    s.raiseErr c = s.respond (errResponse c) := by
  cases s
  cases he
  rfl

/-! ## A sequence of rejected commands -/

/-- What a failed context answers to a word that is no INIT: ERR_ILLEGAL or ERR_STATE (60 R239). -/
def failedResponse (w : CmdWord) : RespWord :=
  match decode w with
  | .illegal _ => 0x81#8
  | .command _ => 0x82#8

theorem failedResponse_of_illegal {w : CmdWord} {why : Illegal} (hd : decode w = .illegal why) :
    failedResponse w = errResponse .illegal := by
  rw [failedResponse, hd]
  rfl

theorem failedResponse_of_command {w : CmdWord} {i : Instr} (hd : decode w = .command i) :
    failedResponse w = errResponse .badState := by
  rw [failedResponse, hd]
  rfl

/-- R239: a failed context answers a word that is no INIT and changes nothing else. -/
theorem stepCommand_of_err {w : CmdWord} {s : State} (he : s.err = true) (hw : ∀ m, decode w ≠ .command (.init m)) :
    stepCommand w s = .next (s.respond (failedResponse w)) := by
  cases hd : decode w with
  | illegal why => rw [stepCommand_of_illegal s hd, State.raiseErr_of_err he, failedResponse_of_illegal hd]
  | command i =>
    have hi : (∃ d, decode w = .command (.updb d)) ∨ decode w = .command .finish := by
      cases i with
      | init m => exact absurd hd (hw m)
      | updb d => exact .inl ⟨d, hd⟩
      | finish => exact .inr hd
    obtain ⟨t, ht, hc⟩ := stepCommand_case w s
    rw [ht, hc.eq_raiseErr_badState_of_err he hi, State.raiseErr_of_err he, failedResponse_of_command hd]

/-- R239: any number of words that are no INIT leave a failed context as it was, but for their responses. -/
theorem runCommands_of_err {ws : List CmdWord} {s : State} (he : s.err = true)
    (hws : ∀ w ∈ ws, ∀ m, decode w ≠ .command (.init m)) :
    runCommands ws s = .next { s with responses := s.responses ++ ws.map failedResponse } := by
  induction ws generalizing s with
  | nil => simp
  | cons w ws ih =>
    obtain ⟨hw, hws⟩ := List.forall_mem_cons.mp hws
    rw [runCommands_cons (stepCommand_of_err he hw), ih (by simpa using he) hws]
    simp [State.respond]

/-- R238: an INIT after any sequence creates a context, for INIT makes no check. -/
theorem runCommands_append_init {ws : List CmdWord} {s t : State} (m : Mode) (h : runCommands ws s = .next t) :
    runCommands (ws ++ [encode (.init m)]) s = .next ((t.createContext m).respond 0x00#8) := by
  rw [runCommands_append h]
  exact runCommands_cons (stepCommand_encode (.init m) t)

/-! ## The obligations -/

/-- Settles O4: the illegal words are those that are not well-formed, which `wellFormedWord_iff_fields` reads off the
fields; a step on one raises ERR_ILLEGAL (`stepCommand_of_illegal`). -/
theorem illegalWordsAreRejected : Obligations.IllegalWordsAreRejected := by
  refine ⟨fun w => ?_, fun s w rest why hi hd => ?_⟩
  · rw [decode_illegal_iff, ← Bool.not_eq_true, wellFormedWord_iff_fields]
    simp only [not_and_or, not_or, Classical.not_imp]
  · rw [step_command hi]
    exact stepCommand_of_illegal _ hd

/-- Settles O17: UPDB and FINISH check that the context is live before they write; INIT makes no check. -/
theorem commandsOnADeadContextAreRejected : Obligations.CommandsOnADeadContextAreRejected := by
  refine ⟨fun s hdead => ?_, fun m s => ⟨_, rfl, rfl⟩⟩
  have hl : s.live = false := s.live_eq_false_iff.mpr hdead
  exact ⟨fun d => execUpdb_notLive d hl, execFinish_notLive hl⟩

/-- Settles O21: a command answered with the `E` bit is `raiseErr c` (`CommandCase.eq_raiseErr_of_rejected`), and the
response holds the code of `c`. -/
theorem rejectedCommandsArePrecise : Obligations.RejectedCommandsArePrecise := by
  intro w s t r h hr hE
  obtain ⟨c, rfl⟩ := (stepCommand_inv h).eq_raiseErr_of_rejected hr hE
  obtain rfl : errResponse c = r := by simpa using hr
  rw [extractLsb'_errResponse]
  exact ⟨rfl, code_firstError s.err s.ecode c, rfl⟩

/-- Settles O23: `runCommands_of_err` gives the state after the rejected words, and an INIT after them
creates a context (`runCommands_append_init`). -/
theorem failedContextStaysFailedUntilInit : Obligations.FailedContextStaysFailedUntilInit := by
  intro ws s he hws rs
  have hrun : runCommands ws s = .next { s with responses := s.responses ++ rs } := runCommands_of_err he hws
  exact ⟨hrun, fun m => ⟨_, runCommands_append_init m hrun, rfl, rfl, rfl, rfl, rfl⟩⟩

end Sys2Proof.Machine
end

section
/-! SUPPORT and PROOFS of the message that a context has absorbed (10_state R38): INIT starts it, an accepted UPDB
extends it by its byte, FINISH delivers its digest (40 R129), and the context invariant that follows. -/

namespace Sys2Proof.Machine

/-! ## The message of a context

`Absorbed` reads `MODE`, `H`, `LEN`, `FILL` and `BUF` alone. -/

theorem State.Absorbed.respond {msg : List Byte} {s : State} (ha : s.Absorbed msg) (r : RespWord) :
    (s.respond r).Absorbed msg :=
  ⟨ha.len_eq, ha.len_lt, ha.fill_eq, ha.pending, ha.regs_eq⟩

theorem State.Absorbed.raiseErr {msg : List Byte} {s : State} (ha : s.Absorbed msg) (c : ErrCode) :
    (s.raiseErr c).Absorbed msg :=
  ⟨ha.len_eq, ha.len_lt, ha.fill_eq, ha.pending, ha.regs_eq⟩

theorem State.Absorbed.popInput {msg : List Byte} {s : State} (ha : s.Absorbed msg) : s.popInput.Absorbed msg :=
  ⟨ha.len_eq, ha.len_lt, ha.fill_eq, ha.pending, ha.regs_eq⟩

/-- INIT starts with the empty message. -/
theorem State.absorbed_createContext (m : Mode) (s : State) : (s.createContext m).Absorbed [] :=
  ⟨rfl, by decide, rfl, fun j hj => absurd hj (Nat.not_lt_zero j.val), rfl⟩

/-- Clause (c) of R38 as a total read. -/
theorem State.Absorbed.getElem_buf {msg : List Byte} {s : State} (ha : s.Absorbed msg) {j : Nat} (hj : j < 128)
    (hlt : j < s.fill.toNat) : s.buf[j] = msg.getD (128 * (msg.length / 128) + j) 0x00#8 := by
  rw [List.getD_eq_getElem?_getD, ha.pending ⟨j, hj⟩ hlt]
  rfl

/-! ## UPDB extends the message -/

/-- Once the byte `d` is stored, the bytes up to `FILL` are those of the longer message. -/
theorem State.Absorbed.getElem_memWrite {msg : List Byte} {s : State} (ha : s.Absorbed msg) (d : Byte) {j : Nat}
    (hj : j < 128) (hle : j ≤ s.fill.toNat) :
    (memWrite s.fill.toNat [d] s.buf)[j] = (msg ++ [d]).getD (128 * (msg.length / 128) + j) 0x00#8 := by
  have hfill := ha.fill_eq
  obtain hlt | rfl := Nat.lt_or_eq_of_le hle
  · rw [getElem_memWrite_before hj hlt, ha.getElem_buf hj hlt, List.getD_append _ _ _ _ (by omega)]
  · rw [getElem_memWrite_inside hj (Nat.le_refl _) (by simp), hfill, Nat.div_add_mod,
      List.getD_append_right _ _ _ _ le_rfl]
    simp

/-- The registers after UPDB: the byte that fills the buffer completes block `msg.length / 128`. -/
theorem State.Absorbed.absorbByte_h {msg : List Byte} {s : State} (ha : s.Absorbed msg) (d : Byte) :
    (s.absorbByte d).h = hashBlocks (initialValues s.mode) (msg ++ [d]) ((msg.length + 1) / 128) := by
  have hfill := ha.fill_eq
  have hhash := hashBlocks_append (initialValues s.mode) msg [d] (Nat.mul_div_le msg.length 128)
  rw [State.absorbByte_h, ha.regs_eq, ← hhash]
  split
  · next hfull =>
    have h127 : s.fill.toNat = 127 := congrArg BitVec.toNat hfull
    have hblock : memWrite s.fill.toNat [d] s.buf = blockAt (msg ++ [d]) (msg.length / 128) :=
      Vector.ext fun j hj => by rw [ha.getElem_memWrite d hj (by omega), getElem_blockAt]
    rw [hblock, show (msg.length + 1) / 128 = msg.length / 128 + 1 by omega, hashBlocks]
  · next hroom =>
    have hne : s.fill.toNat ≠ 127 := fun h => hroom (BitVec.eq_of_toNat_eq h)
    rw [show (msg.length + 1) / 128 = msg.length / 128 by omega]

theorem State.Absorbed.absorbByte_fill_toNat {msg : List Byte} {s : State} (ha : s.Absorbed msg) (d : Byte) :
    (s.absorbByte d).fill.toNat = (msg.length + 1) % 128 := by
  have hfill := ha.fill_eq
  rw [State.absorbByte_fill]
  split
  · next hfull =>
    have h127 : s.fill.toNat = 127 := congrArg BitVec.toNat hfull
    rw [BitVec.toNat_ofNat]
    omega
  · rw [BitVec.toNat_add, hfill]
    exact Nat.mod_add_mod msg.length 128 1

/-- R38: an accepted UPDB extends the message by its byte. -/
theorem State.Absorbed.absorbByte {msg : List Byte} {s : State} (ha : s.Absorbed msg) (d : Byte)
    (hroom : msg.length + 1 < 2 ^ 125) : (s.absorbByte d).Absorbed (msg ++ [d]) where
  len_eq := by
    have hlen := ha.len_eq
    rw [State.absorbByte_len_toNat d (by omega), hlen, List.length_append, List.length_singleton, Nat.mul_add_one]
  len_lt := by rwa [List.length_append, List.length_singleton]
  fill_eq := by rw [ha.absorbByte_fill_toNat d, List.length_append, List.length_singleton]
  pending j hj := by
    have hfill := ha.fill_eq
    rw [ha.absorbByte_fill_toNat d] at hj
    have hbyte := ha.getElem_memWrite d j.isLt (by omega)
    have hidx : 128 * (msg.length / 128) + j.val < (msg ++ [d]).length := by simp; omega
    rw [List.getD_eq_getElem _ _ hidx] at hbyte
    simp only [List.length_append, List.length_singleton, show (msg.length + 1) / 128 = msg.length / 128 by omega,
      State.absorbByte_buf, List.getElem?_eq_getElem hidx, Fin.getElem_fin, hbyte]
  regs_eq := by rw [ha.absorbByte_h d, State.absorbByte_mode, List.length_append, List.length_singleton]

/-- The counter has room for one more byte exactly below the longest message (R195). -/
theorem State.Absorbed.lenFull_eq_false_iff {msg : List Byte} {s : State} (ha : s.Absorbed msg) :
    s.lenFull = false ↔ msg.length + 1 < 2 ^ 125 := by
  have hlen := ha.len_eq
  rw [s.lenFull_eq_false_iff]
  omega

/-- R106: an update whose data fits extends the message by the data. -/
theorem State.Absorbed.absorbBytes {msg data : List Byte} {s : State} (ha : s.Absorbed msg)
    (hroom : msg.length + data.length < 2 ^ 125) : (s.absorbBytes data).Absorbed (msg ++ data) := by
  induction data generalizing msg s with
  | nil => simpa using ha
  | cons d ds ih =>
    rw [List.length_cons] at hroom
    have hnext := (ha.absorbByte d (by omega)).respond 0x00#8
    have hrest : (msg ++ [d]).length + ds.length < 2 ^ 125 := by rw [List.length_append, List.length_singleton]; omega
    simpa using ih hnext hrest

/-! ## The padded message (40 R128, R129) -/

theorem length_paddedMessage (msg : List Byte) :
    (paddedMessage msg).length = msg.length + 1 + zeroCount msg.length + 16 := by
  simp only [paddedMessage, List.length_append, List.length_singleton, List.length_replicate, length_bytesBE]

theorem blockCount_of_le {n : Nat} (h : n % 128 ≤ 111) : blockCount n = n / 128 + 1 := by
  unfold blockCount
  omega

theorem blockCount_of_gt {n : Nat} (h : 112 ≤ n % 128) : blockCount n = n / 128 + 2 := by
  unfold blockCount
  omega

/-- Padding begins after the complete blocks of the message. -/
theorem hashBlocks_paddedMessage (r : Regs) (msg : List Byte) :
    hashBlocks r (paddedMessage msg) (msg.length / 128) = hashBlocks r msg (msg.length / 128) := by
  rw [paddedMessage, List.append_assoc, List.append_assoc]
  exact hashBlocks_append r msg _ (Nat.mul_div_le msg.length 128)

/-! ## FINISH compresses the padded message -/

/-- The length field of the padded message is the counter's (43 R198). -/
theorem State.Absorbed.byteBE_length {msg : List Byte} {s : State} (ha : s.Absorbed msg) (j : Nat) :
    byteBE 16 (8 * msg.length) j = s.len.extractLsb' (8 * (15 - j)) 8 := by
  rw [← ha.len_eq, byteBE_toNat]

/-- Block `msg.length / 128` of the padded message up to the mark: the pending bytes, then the mark. What stands after
the mark (`x`) is not said here. -/
theorem State.Absorbed.getD_paddedMessage_of_le {msg : List Byte} {s : State} (ha : s.Absorbed msg) {j : Nat}
    (hj : j < 128) (hle : j ≤ s.fill.toNat) (x : Byte) :
    (paddedMessage msg).getD (128 * (msg.length / 128) + j) 0x00#8 =
      if j < s.fill.toNat then s.buf[j] else if j = s.fill.toNat then 0x80#8 else x := by
  have hfill := ha.fill_eq
  rw [getD_paddedMessage]
  split
  · next h => rw [if_pos (by omega), ha.getElem_buf hj (by omega), List.getD_eq_getElem _ _ h]
  · rw [if_pos (by omega), if_neg (by omega), if_pos (by omega)]

/-- The last block of the padded message, after the mark: zeros up to the length field, then the counter. -/
theorem State.Absorbed.getD_paddedMessage_lastBlock {msg : List Byte} {s : State} (ha : s.Absorbed msg) {k j : Nat}
    (hlast : (paddedMessage msg).length = 128 * k + 128) (hj : j < 128) (hgt : msg.length < 128 * k + j) :
    (paddedMessage msg).getD (128 * k + j) 0x00#8 =
      if j < 112 then 0x00#8 else s.len.extractLsb' (8 * (127 - j)) 8 := by
  rw [length_paddedMessage] at hlast
  rw [getD_paddedMessage, dif_neg (by omega), if_neg (by omega)]
  by_cases hz : j < 112
  · rw [if_pos (by omega), if_pos hz]
  · rw [if_neg (by omega), if_pos (by omega), if_neg hz, ha.byteBE_length]
    congr 2
    omega

/-- The zeros of the padded message. -/
theorem getD_paddedMessage_zero {msg : List Byte} {k : Nat} (hgt : msg.length < k)
    (hlt : k + 16 < (paddedMessage msg).length) : (paddedMessage msg).getD k 0x00#8 = 0x00#8 := by
  rw [length_paddedMessage] at hlt
  rw [getD_paddedMessage, dif_neg (by omega), if_neg (by omega), if_pos (by omega)]

/-- R128: the length fits in the block of the pending bytes. -/
theorem State.Absorbed.padAndCompress_h_oneBlock {msg : List Byte} {s : State} (ha : s.Absorbed msg)
    (hone : msg.length % 128 ≤ 111) :
    s.padAndCompress.h = hashBlocks (initialValues s.mode) (paddedMessage msg) (msg.length / 128 + 1) := by
  have hfill := ha.fill_eq
  have hlen := length_paddedMessage msg
  have hzero := zeroCount_le msg.length hone
  have hpad := padAndCompress_oneBlock (s := s) (b := blockAt (paddedMessage msg) (msg.length / 128)) (by omega)
    fun j hj => by
      rw [getElem_blockAt]
      by_cases hle : j ≤ s.fill.toNat
      · exact ha.getD_paddedMessage_of_le hj hle _
      · rw [ha.getD_paddedMessage_lastBlock (by omega) hj (by omega), if_neg (show ¬j < s.fill.toNat by omega),
          if_neg (show j ≠ s.fill.toNat by omega)]
  rw [hpad, hashBlocks, hashBlocks_paddedMessage, ← ha.regs_eq]

/-- R128: the length goes into a block of its own. -/
theorem State.Absorbed.padAndCompress_h_twoBlocks {msg : List Byte} {s : State} (ha : s.Absorbed msg)
    (htwo : 112 ≤ msg.length % 128) :
    s.padAndCompress.h = hashBlocks (initialValues s.mode) (paddedMessage msg) (msg.length / 128 + 2) := by
  have hfill := ha.fill_eq
  have hlen := length_paddedMessage msg
  have hzero := zeroCount_gt msg.length htwo
  have hpad := padAndCompress_twoBlocks (s := s) (b := blockAt (paddedMessage msg) (msg.length / 128))
    (b' := blockAt (paddedMessage msg) (msg.length / 128 + 1)) (by omega)
    (fun j hj => by
      rw [getElem_blockAt]
      by_cases hle : j ≤ s.fill.toNat
      · exact ha.getD_paddedMessage_of_le hj hle _
      · rw [getD_paddedMessage_zero (by omega) (by omega), if_neg (by omega), if_neg (by omega)])
    (fun j hj => by rw [getElem_blockAt, ha.getD_paddedMessage_lastBlock (by omega) hj (by omega)])
  rw [hpad, hashBlocks, hashBlocks, hashBlocks_paddedMessage, ← ha.regs_eq]

/-- R129: padding leaves in `H` the hash of the padded message's blocks. -/
theorem State.Absorbed.padAndCompress_h {msg : List Byte} {s : State} (ha : s.Absorbed msg) :
    s.padAndCompress.h = hashBlocks (initialValues s.mode) (paddedMessage msg) (blockCount msg.length) := by
  by_cases hone : msg.length % 128 ≤ 111
  · rw [blockCount_of_le hone, ha.padAndCompress_h_oneBlock hone]
  · have htwo : 112 ≤ msg.length % 128 := Nat.not_le.mp hone
    rw [blockCount_of_gt htwo, ha.padAndCompress_h_twoBlocks htwo]

/-- The digest that FINISH delivers. -/
theorem State.Absorbed.deliver_dout {msg : List Byte} {s : State} (ha : s.Absorbed msg) :
    s.padAndCompress.deliver.dout = digestOf s.mode msg := by
  rw [State.deliver_dout, State.padAndCompress_mode, ha.padAndCompress_h, digestOf]

/-! ## The context invariant -/

theorem State.ContextInv.raiseErr {s : State} (hs : s.ContextInv) (c : ErrCode) : (s.raiseErr c).ContextInv where
  active hp := (hs.active hp).imp fun _ ha => ha.raiseErr c
  done hp := hs.done hp

theorem State.ContextInv.popInput {s : State} (hs : s.ContextInv) : s.popInput.ContextInv where
  active hp := (hs.active hp).imp fun _ ha => ha.popInput
  done hp := hs.done hp

theorem State.contextInv_of_idle {s : State} (hp : s.phase = .idle) : s.ContextInv where
  active h := by cases hp.symm.trans h
  done h := by cases hp.symm.trans h

theorem State.contextInv_of_absorbed {s : State} {msg : List Byte} (hp : s.phase = .active) (ha : s.Absorbed msg) :
    s.ContextInv where
  active _ := ⟨msg, ha⟩
  done h := by cases hp.symm.trans h

theorem State.contextInv_of_digest {s : State} {msg : List Byte} (hp : s.phase = .done) (hlen : msg.length < 2 ^ 125)
    (hd : s.dout = digestOf s.mode msg) : s.ContextInv where
  active h := by cases hp.symm.trans h
  done _ := ⟨msg, hlen, hd⟩

/-- Every command keeps the context invariant. -/
theorem CommandCase.contextInv {w : CmdWord} {s t : State} (hc : CommandCase w s t) (hs : s.ContextInv) :
    t.ContextInv := by
  cases hc with
  | illegal => exact hs.raiseErr _
  | updbFull => exact hs.raiseErr _
  | notLive => exact hs.raiseErr _
  | init m => exact State.contextInv_of_absorbed rfl ((s.absorbed_createContext m).respond _)
  | updb d _ hl hf =>
    obtain ⟨hp, -⟩ := s.live_iff.mp hl
    obtain ⟨msg, ha⟩ := hs.active hp
    have hroom := ha.lenFull_eq_false_iff.mp hf
    exact State.contextInv_of_absorbed (by simpa using hp) ((ha.absorbByte d hroom).respond _)
  | finish _ hl =>
    obtain ⟨hp, -⟩ := s.live_iff.mp hl
    obtain ⟨msg, ha⟩ := hs.active hp
    exact State.contextInv_of_digest rfl ha.length_lt (by simpa using ha.deliver_dout)

/-- Settles O37: a reset event goes to IDLE, where nothing is claimed, and every command keeps the invariant
(`CommandCase.contextInv`). -/
theorem contextInvariantIsKept : Obligations.ContextInvariantIsKept := by
  intro s t hs h
  obtain ⟨-, rfl⟩ | ⟨lost, rest, -, rfl⟩ | ⟨w, rest, -, hc⟩ := step_inv h
  · exact hs
  · exact State.contextInv_of_idle rfl
  · exact hc.contextInv hs.popInput

/-- Settles O38: after reset `PHASE` is IDLE. -/
theorem contextInvariantAtReset : Obligations.ContextInvariantAtReset :=
  State.contextInv_of_idle rfl

end Sys2Proof.Machine
end

section
/-! PROOFS of the whole contexts (40_context_commands section 5, 30_encoding section 7): a context from INIT to FINISH,
and an update as a whole. -/

namespace Sys2Proof.Machine

/-! ## The bytes of an update -/

@[simp] theorem State.absorbBytes_mode (data : List Byte) (s : State) : (s.absorbBytes data).mode = s.mode := by
  induction data generalizing s with
  | nil => rfl
  | cons d ds ih => simpa using ih ((s.absorbByte d).respond 0x00#8)

theorem State.absorbBytes_responses (data : List Byte) (s : State) :
    (s.absorbBytes data).responses = s.responses ++ List.replicate data.length 0x00#8 := by
  induction data generalizing s with
  | nil => simp
  | cons d ds ih => simpa [List.replicate_succ] using ih ((s.absorbByte d).respond 0x00#8)

/-- The update of a context that has absorbed `msg`, when the data fits. -/
theorem State.Absorbed.runCommands_updateCmds {msg data : List Byte} {s : State} (ha : s.Absorbed msg)
    (hl : s.live = true) (hroom : msg.length + data.length < 2 ^ 125) :
    runCommands (updateCmds data) s = .next (s.absorbBytes data) := by
  have hlen := ha.len_eq
  exact Machine.runCommands_updateCmds hl (by omega)

theorem updateCmds_append (data data' : List Byte) : updateCmds (data ++ data') = updateCmds data ++ updateCmds data' :=
  List.map_append

theorem flatMap_updateCmds (chunks : List (List Byte)) : chunks.flatMap updateCmds = updateCmds chunks.flatten :=
  List.map_flatten.symm

/-- No word of an update is an INIT. -/
theorem decode_updateCmds_ne_init {data : List Byte} {w : CmdWord} (hw : w ∈ updateCmds data) (m : Mode) :
    decode w ≠ .command (.init m) := by
  obtain ⟨d, -, rfl⟩ := List.mem_map.mp hw
  rw [decode_encode]
  simp

/-- R195, R239: a live context at the counter's limit rejects the first byte with ERR_LEN and all that follow. -/
theorem State.Absorbed.runCommands_updateCmds_atLimit {msg : List Byte} {s : State} (ha : s.Absorbed msg)
    (hl : s.live = true) (hmax : msg.length = 2 ^ 125 - 1) {data : List Byte} (hne : data ≠ []) :
    ∃ t, runCommands (updateCmds data) s = .next t ∧ t.mode = s.mode ∧ t.err = true ∧ t.ecode = .length ∧
      t.Absorbed msg := by
  obtain ⟨d, ds, rfl⟩ := List.exists_cons_of_ne_nil hne
  obtain ⟨-, he⟩ := s.live_iff.mp hl
  have hfull := s.lenFull_iff.mpr (ha.atLimit_iff.mpr hmax)
  have hfirst := (stepCommand_encode (.updb d) s).trans (execUpdb_full d hl hfull)
  have hrest := runCommands_of_err (s := s.raiseErr .length) rfl fun w hw => decode_updateCmds_ne_init (data := ds) hw
  refine ⟨_, (runCommands_cons hfirst).trans hrest, rfl, rfl, by simp [firstError, he], ?_⟩
  exact ⟨ha.len_eq, ha.len_lt, ha.fill_eq, ha.pending, ha.regs_eq⟩

/-- R106 (c): an update whose data does not fit absorbs the longest part that fits, and fails with ERR_LEN. -/
theorem State.Absorbed.runCommands_updateCmds_overflow {msg data : List Byte} {s : State} (ha : s.Absorbed msg)
    (hl : s.live = true) (hover : 2 ^ 125 ≤ msg.length + data.length) :
    ∃ t, runCommands (updateCmds data) s = .next t ∧ t.mode = s.mode ∧ t.err = true ∧ t.ecode = .length ∧
      t.Absorbed (msg ++ data.take (2 ^ 125 - 1 - msg.length)) := by
  have hlt := ha.length_lt
  generalize hk : 2 ^ 125 - 1 - msg.length = k
  have htake : (data.take k).length = k := List.length_take_of_le (by omega)
  have hfit : msg.length + (data.take k).length < 2 ^ 125 := by omega
  have hmax : (msg ++ data.take k).length = 2 ^ 125 - 1 := by rw [List.length_append]; omega
  have hdrop : data.drop k ≠ [] := by
    rw [ne_eq, List.drop_eq_nil_iff]
    omega
  obtain ⟨t, ht, hmode, hfail⟩ := (ha.absorbBytes hfit).runCommands_updateCmds_atLimit (by simpa using hl) hmax hdrop
  refine ⟨t, ?_, hmode.trans (s.absorbBytes_mode _), hfail⟩
  rw [← List.take_append_drop k data, updateCmds_append, runCommands_append (ha.runCommands_updateCmds hl hfit)]
  exact ht

/-! ## FINISH -/

/-- What an accepted FINISH leaves, for a context that has absorbed `msg`. -/
theorem State.Absorbed.execFinish_next {msg : List Byte} {s : State} (ha : s.Absorbed msg) (hl : s.live = true) :
    ∃ t, execFinish s = .next t ∧ t.phase = .done ∧ t.mode = s.mode ∧ t.err = false ∧ t.dout = digestOf s.mode msg ∧
      t.h = hashBlocks (initialValues s.mode) (paddedMessage msg) (blockCount msg.length) ∧
      t.responses = s.responses ++ [0x40#8] := by
  obtain ⟨-, he⟩ := s.live_iff.mp hl
  exact ⟨_, execFinish_accepted hl, rfl, by simp, by simpa using he, ha.deliver_dout, ha.padAndCompress_h, by simp⟩

/-- R217: the bytes of `DOUT` above the digest are zero. -/
theorem getElem_digestBytes_of_le {m : Mode} {r : Regs} {j : Nat} (hj : j < 64) (hle : digestLength m ≤ j) :
    (digestBytes m r)[j] = 0x00#8 := by
  simp only [digestBytes, getElem_tabulate, if_neg (Nat.not_lt_of_le hle)]

theorem State.digestRead_of_done {s : State} (hp : s.phase = .done) :
    s.digestRead = some (s.dout.toList.take (digestLength s.mode)) :=
  if_pos hp

/-! ## The obligations -/

/-- Settles O39: `absorbed_createContext` and `Absorbed.absorbByte`; a rejected command is `raiseErr`
(`CommandCase.eq_raiseErr_of_rejected`), which the message does not read. -/
theorem commandsExtendTheMessage : Obligations.CommandsExtendTheMessage := by
  refine ⟨fun m s => ?_, fun msg d s hl ha hroom => ?_, fun msg w s t r ha h hr hE => ?_⟩
  · exact ⟨_, rfl, (s.absorbed_createContext m).respond _, rfl, rfl⟩
  · exact ⟨_, execUpdb_accepted d hl (ha.lenFull_eq_false_iff.mpr hroom), (ha.absorbByte d hroom).respond _,
      by simp, (s.absorbByte_respond_live d _).trans hl⟩
  · obtain ⟨c, rfl⟩ := (stepCommand_inv h).eq_raiseErr_of_rejected hr hE
    exact ha.raiseErr c

/-- Settles O40: the zeros fill up to the length field of the message's last block, or of one block more. -/
theorem paddedMessageIsWholeBlocks : Obligations.PaddedMessageIsWholeBlocks := by
  intro msg
  have hlen := length_paddedMessage msg
  by_cases hone : msg.length % 128 ≤ 111
  · have hzero := zeroCount_le msg.length hone
    have hcount := blockCount_of_le hone
    rw [if_pos hone]
    omega
  · have hzero := zeroCount_gt msg.length (by omega)
    have hcount := blockCount_of_gt (n := msg.length) (by omega)
    rw [if_neg hone]
    omega

/-- Settles O41: `Absorbed.padAndCompress_h`, delivered. -/
theorem finishDeliversTheDigest : Obligations.FinishDeliversTheDigest := by
  intro msg s hl ha
  obtain ⟨t, ht, hphase, -, -, hdout, hh, hresp⟩ := ha.execFinish_next hl
  exact ⟨t, ht, hphase, hdout, hh, hresp⟩

/-- Settles O42: INIT starts the empty message, the bytes extend it to `msg` (`Absorbed.absorbBytes`), and FINISH
delivers its digest. -/
theorem wholeContextComputesTheDigest : Obligations.WholeContextComputesTheDigest := by
  intro m msg s hlen
  have ha : (((s.createContext m).respond 0x00#8).absorbBytes msg).Absorbed msg :=
    ((s.absorbed_createContext m).respond 0x00#8).absorbBytes (by simpa using hlen)
  have hl : (((s.createContext m).respond 0x00#8).absorbBytes msg).live = true := by
    rw [State.absorbBytes_live]
    rfl
  obtain ⟨t, ht, hphase, hmode, herr, hdout, -, hresp⟩ := ha.execFinish_next hl
  have hmode' : t.mode = m := by simpa using hmode
  have hdout' : t.dout = digestOf m msg := by simpa using hdout
  have hrun : runCommands (hashCmds m msg) s = .next t :=
    (runCommands_hashCmds m s hlen).trans ((execFinish_accepted hl).symm.trans ht)
  refine ⟨t, hrun, ?_, hphase, hmode', herr, hdout', ?_, fun j hj => ?_⟩
  · rw [hresp, State.absorbBytes_responses]
    simp [List.replicate_succ]
  · rw [State.digestRead_of_done hphase, hdout', hmode']
  · rw [hdout', digestOf, Fin.getElem_fin, getElem_digestBytes_of_le j.isLt hj]

/-- Settles O44: data that fits is absorbed byte by byte; data that does not is split at the longest part that fits,
after which the counter is at its limit (`Absorbed.runCommands_updateCmds_overflow`). -/
theorem updateAbsorbsAllOrFails : Obligations.UpdateAbsorbsAllOrFails := by
  refine ⟨fun data msg s hl ha => ?_, fun chunks s => by rw [flatMap_updateCmds]⟩
  by_cases hfit : msg.length + data.length < 2 ^ 125
  · exact ⟨_, ha.runCommands_updateCmds hl hfit, s.absorbBytes_mode data,
      .inl ⟨hfit, (s.absorbBytes_live data).trans hl, ha.absorbBytes hfit⟩⟩
  · have hover := Nat.not_lt.mp hfit
    obtain ⟨t, ht, hmode, hfail⟩ := ha.runCommands_updateCmds_overflow hl hover
    exact ⟨t, ht, hmode, .inr ⟨hover, hfail⟩⟩

end Sys2Proof.Machine
end

section
/-! SUPPORT and PROOFS of the step as a whole (20 section 6, 40 R120, 70 section 1, 60 R250): every state has a next
state, a run over the waiting commands is their fold, a reset event, and several cores. -/

namespace Sys2Proof.Machine

/-! ## One command from its case -/

/-- The converse of `stepCommand_inv`. -/
theorem CommandCase.stepCommand_eq {w : CmdWord} {s t : State} (hc : CommandCase w s t) :
    stepCommand w s = .next t := by
  unfold stepCommand
  cases hc with
  | illegal why hd => rw [hd]; rfl
  | init m hd => rw [hd]; rfl
  | updb d hd hl hf => rw [hd]; exact execUpdb_accepted d hl hf
  | updbFull d hd hl hf => rw [hd]; exact execUpdb_full d hl hf
  | finish hd hl => rw [hd]; exact execFinish_accepted hl
  | notLive hd hl =>
    obtain ⟨d, hd⟩ | hd := hd
    · rw [hd]; exact execUpdb_notLive d hl
    · rw [hd]; exact execFinish_notLive hl

theorem CommandCase.inbox_eq {w : CmdWord} {s t : State} (hc : CommandCase w s t) : t.inbox = s.inbox := by
  cases hc with
  | illegal => rfl
  | init => rfl
  | updb => simp
  | updbFull => rfl
  | finish => simp
  | notLive => rfl

/-! ## The mode and the list of waiting inputs

Storing a byte and padding read neither of them. -/

theorem State.bufWrite_setModeInbox (a : Nat) (bs : List Byte) (s : State) (m : Mode) (xs : List HostInput) :
    ({ s with mode := m, inbox := xs } : State).bufWrite a bs = { s.bufWrite a bs with mode := m, inbox := xs } := rfl

theorem State.compressBuf_setModeInbox (s : State) (m : Mode) (xs : List HostInput) :
    ({ s with mode := m, inbox := xs } : State).compressBuf = { s.compressBuf with mode := m, inbox := xs } := rfl

theorem State.padAndCompress_setModeInbox (s : State) (m : Mode) (xs : List HostInput) :
    ({ s with mode := m, inbox := xs } : State).padAndCompress = { s.padAndCompress with mode := m, inbox := xs } := by
  by_cases hi : 112 < s.fill.toNat + 1
  · simp only [State.padAndCompress, if_pos hi, State.padMark, State.zeroFill, State.writeLength,
      State.bufWrite_setModeInbox, State.compressBuf_setModeInbox]
  · simp only [State.padAndCompress, if_neg hi, State.padMark, State.zeroFill, State.writeLength,
      State.bufWrite_setModeInbox, State.compressBuf_setModeInbox]

theorem State.absorbByte_setModeInbox (d : Byte) (s : State) (m : Mode) (xs : List HostInput) :
    ({ s with mode := m, inbox := xs } : State).absorbByte d = { s.absorbByte d with mode := m, inbox := xs } := by
  by_cases hf : s.fill = 127#7
  · rw [s.absorbByte_lastByte d hf]
    exact State.absorbByte_lastByte d hf
  · rw [s.absorbByte_midBlock d hf]
    exact State.absorbByte_midBlock d hf

theorem State.padAndCompress_setInbox (s : State) (xs : List HostInput) :
    ({ s with inbox := xs } : State).padAndCompress = { s.padAndCompress with inbox := xs } := by
  simpa using s.padAndCompress_setModeInbox s.mode xs

theorem State.padAndCompress_setMode (s : State) (m : Mode) :
    ({ s with mode := m } : State).padAndCompress = { s.padAndCompress with mode := m } := by
  simpa using s.padAndCompress_setModeInbox m s.inbox

theorem State.absorbByte_setInbox (d : Byte) (s : State) (xs : List HostInput) :
    ({ s with inbox := xs } : State).absorbByte d = { s.absorbByte d with inbox := xs } := by
  simpa using s.absorbByte_setModeInbox d s.mode xs

theorem State.absorbByte_setMode (d : Byte) (s : State) (m : Mode) :
    ({ s with mode := m } : State).absorbByte d = { s.absorbByte d with mode := m } := by
  simpa using s.absorbByte_setModeInbox d m s.inbox

/-- A command neither reads nor writes the list of waiting inputs (log 1). -/
theorem stepCommand_setInbox {w : CmdWord} {s t : State} (h : stepCommand w s = .next t) (xs : List HostInput) :
    stepCommand w { s with inbox := xs } = .next { t with inbox := xs } := by
  cases stepCommand_inv h with
  | illegal why hd => exact (CommandCase.illegal why hd).stepCommand_eq
  | init m hd => exact (CommandCase.init m hd).stepCommand_eq
  | updb d hd hl hf =>
    have h' := (CommandCase.updb (s := { s with inbox := xs }) d hd hl hf).stepCommand_eq
    rwa [s.absorbByte_setInbox] at h'
  | updbFull d hd hl hf => exact (CommandCase.updbFull (s := { s with inbox := xs }) d hd hl hf).stepCommand_eq
  | finish hd hl =>
    have h' := (CommandCase.finish (s := { s with inbox := xs }) hd hl).stepCommand_eq
    rwa [s.padAndCompress_setInbox] at h'
  | notLive hd hl => exact (CommandCase.notLive (s := { s with inbox := xs }) hd hl).stepCommand_eq

/-! ## Every state has a next state -/

/-- A step that takes a reset event. -/
theorem step_reset {s : State} {lost : Option CmdWord} {rest : List HostInput} (hi : s.inbox = .reset lost :: rest) :
    step s = .next { s with inbox := rest }.applyReset := by
  simp only [step, State.popInput, hi, List.tail_cons, takeReset]

/-- With nothing waiting the core waits (log 2). -/
theorem step_of_inbox_nil {s : State} (hi : s.inbox = []) : step s = .next s := by
  simp only [step, hi, awaitInput]

theorem step_next (s : State) : ∃ t, step s = .next t ∧ t.inbox = s.inbox.tail := by
  cases hi : s.inbox with
  | nil => exact ⟨s, step_of_inbox_nil hi, hi⟩
  | cons x rest =>
    cases x with
    | reset lost => exact ⟨_, step_reset hi, rfl⟩
    | command w =>
      obtain ⟨t, ht, hc⟩ := stepCommand_case w { s with inbox := rest }
      exact ⟨t, (step_command hi).trans ht, hc.inbox_eq⟩

/-- One step of a run. -/
theorem core_run_succ {s t : State} (h : step s = .next t) (k : Nat) : core.run (k + 1) s = core.run k t := by
  simp only [Host.Core.run, show core.step s = .next t from h]

/-! ## Several cores -/

/-- The state after one step. Every state has one (`step_eq_next`). -/
def stepped (s : State) : State :=
  match step s with
  | .next t => t
  | .fault _ => s
  | .refused _ => s

theorem step_eq_next (s : State) : step s = .next (stepped s) := by
  obtain ⟨t, ht, -⟩ := step_next s
  rw [stepped, ht]

/-- R250: core `k` takes its step in its place. -/
theorem stepCore_eq_modify (k : Nat) (sys : System) : stepCore k sys = .next (sys.modify k stepped) := by
  unfold stepCore
  split
  · next h => rw [List.modify_eq_self (List.getElem?_eq_none_iff.mp h)]
  · next s h => rw [step_eq_next, List.modify_eq_set_getElem?, h]; rfl

/-! ## The obligations -/

/-- Settles O5: `step_command`, with the word decoded. -/
theorem stepRunsTheDecodedCommand : Obligations.StepRunsTheDecodedCommand := by
  intro s w rest i hi hd
  rw [step_command hi, stepCommand, hd]

/-- Settles O6: the cases of the oldest input. -/
theorem stepAlwaysCompletes : Obligations.StepAlwaysCompletes :=
  ⟨step_next, fun _ => step_of_inbox_nil⟩

/-- Settles O7: each step answers the oldest command as if no other waited (`stepCommand_setInbox`). -/
theorem inboxRunIsTheFoldOfCommands : Obligations.InboxRunIsTheFoldOfCommands := by
  intro s ws
  induction ws generalizing s with
  | nil => rfl
  | cons w ws ih =>
    obtain ⟨t, ht, -⟩ := stepCommand_case w s
    have hstep : step { s with inbox := (w :: ws).map .command } = .next { t with inbox := ws.map .command } :=
      (step_command rfl).trans (stepCommand_setInbox ht _)
    rw [List.length_cons, core_run_succ hstep, ih t, runCommands_cons (stepCommand_setInbox ht [])]

/-- Settles O8: the reset event is `applyReset`, and no other step ends in IDLE (`step_phase_change`). -/
theorem resetEventReachesIdle : Obligations.ResetEventReachesIdle := by
  refine ⟨fun s lost rest hi => ⟨_, step_reset hi, rfl, rfl, rfl, rfl, rfl, rfl, rfl⟩, fun s t h hs ht => ?_⟩
  obtain ⟨lost, rest, hi, -⟩ | ⟨w, rest, m, -, -, hp⟩ | ⟨w, rest, -, -, -, hp⟩ :=
    step_phase_change h (ht.trans_ne hs.symm)
  · exact ⟨lost, rest, hi⟩
  · cases hp.symm.trans ht
  · cases hp.symm.trans ht

/-- Settles O46: a step of core `k` modifies entry `k` alone (`stepCore_eq_modify`), and changes of two entries
commute. -/
theorem coresDoNotInteract : Obligations.CoresDoNotInteract := by
  refine fun k sys => ⟨_, stepCore_eq_modify k sys, fun j hj => ?_, fun s hs => ?_, fun j sysJ both hj hJ hboth => ?_⟩
  · exact List.getElem?_modify_ne stepped sys hj.symm
  · refine ⟨_, step_eq_next s, ?_⟩
    rw [List.getElem?_modify_eq, hs]
    rfl
  · cases (stepCore_eq_modify j sys).symm.trans hJ
    cases (stepCore_eq_modify j _).symm.trans hboth
    rw [stepCore_eq_modify, List.modify_modify_ne _ _ _ hj]

/-- Settles O9: the values of `State.reset`. -/
theorem resetStateControlFields : Obligations.ResetStateControlFields :=
  ⟨rfl, rfl, rfl, rfl, rfl⟩

end Sys2Proof.Machine
end

section
/-! SUPPORT and PROOFS of what the commands read and write (10_state sections 3, 7, 12, 13): frames, the writers of each
element, the agreement of `ECODE` and `ERR`, and that no command reads a value that reset leaves unspecified. -/

namespace Sys2Proof.Machine

/-! ## Inversions -/

/-- Inversion of UPDB with its conditions: accepted below the counter's limit on a live context, else rejected. -/
theorem execUpdb_cases {d : Byte} {s t : State} (h : execUpdb d s = .next t) :
    (s.live = true ∧ s.lenFull = false ∧ t = (s.absorbByte d).respond 0x00#8) ∨
      ((s.live = false ∨ s.lenFull = true) ∧ ∃ c, t = s.raiseErr c) := by
  cases hl : s.live with
  | false =>
    cases (execUpdb_notLive d hl).symm.trans h
    exact .inr ⟨.inl rfl, _, rfl⟩
  | true =>
    cases hf : s.lenFull with
    | false =>
      cases (execUpdb_accepted d hl hf).symm.trans h
      exact .inl ⟨rfl, rfl, rfl⟩
    | true =>
      cases (execUpdb_full d hl hf).symm.trans h
      exact .inr ⟨.inr rfl, _, rfl⟩

/-- Inversion of FINISH with its condition. -/
theorem execFinish_cases {s t : State} (h : execFinish s = .next t) :
    (s.live = true ∧ t = s.padAndCompress.deliver.respond 0x40#8) ∨ (s.live = false ∧ ∃ c, t = s.raiseErr c) := by
  cases hl : s.live with
  | false =>
    cases (execFinish_notLive hl).symm.trans h
    exact .inr ⟨rfl, _, rfl⟩
  | true =>
    cases (execFinish_accepted hl).symm.trans h
    exact .inl ⟨rfl, rfl⟩

/-- One command is rejected, or is an INIT, or an accepted UPDB or FINISH. -/
theorem CommandCase.rejected_or_accepted {w : CmdWord} {s t : State} (hc : CommandCase w s t) :
    (∃ c, t = s.raiseErr c) ∨ (∃ m, decode w = .command (.init m) ∧ t = (s.createContext m).respond 0x00#8) ∨
      (∃ d, decode w = .command (.updb d) ∧ t = (s.absorbByte d).respond 0x00#8) ∨
      (decode w = .command .finish ∧ t = s.padAndCompress.deliver.respond 0x40#8) := by
  cases hc with
  | illegal => exact .inl ⟨_, rfl⟩
  | updbFull => exact .inl ⟨_, rfl⟩
  | notLive => exact .inl ⟨_, rfl⟩
  | init m hd => exact .inr (.inl ⟨m, hd, rfl⟩)
  | updb d hd => exact .inr (.inr (.inl ⟨d, hd, rfl⟩))
  | finish hd => exact .inr (.inr (.inr ⟨hd, rfl⟩))

/-! ## Bytes of `BUF` -/

/-- An accepted UPDB stores at index `FILL` alone. -/
theorem State.getElem_absorbByte_buf {s : State} (d : Byte) {j : Nat} (hj : j < 128) :
    (s.absorbByte d).buf[j] = if j = s.fill.toNat then d else s.buf[j] := by
  simp only [State.absorbByte_buf, memWrite_singleton s.fill.toNat s.fill.isLt, Vector.getElem_set, eq_comm (a := j)]

/-- Padding into one block leaves the pending bytes. -/
theorem State.getElem_padAndCompress_buf_of_lt {s : State} (hone : s.fill.toNat ≤ 111) {j : Nat} (hj : j < 128)
    (hlt : j < s.fill.toNat) : s.padAndCompress.buf[j] = s.buf[j] := by
  simp only [State.padAndCompress, if_neg (show ¬112 < s.fill.toNat + 1 by omega), State.compressBuf_buf]
  rw [getElem_writeLength _ hj, if_pos (by omega), getElem_zeroFill _ _ _ hj, if_neg (by omega),
    getElem_padMark hj hlt.le, if_pos hlt]

/-! ## The mode -/

/-- The first 48 bytes of `DOUT` are in both digests. -/
theorem getElem_digestBytes_of_lt (m m' : Mode) (r : Regs) {j : Nat} (hj : j < 48) :
    (digestBytes m r)[j] = (digestBytes m' r)[j] := by
  have hlen (m : Mode) : j < digestLength m := by
    cases m
    · exact hj
    · exact hj.trans (by decide)
  simp only [digestBytes, getElem_tabulate, if_pos (hlen _)]

theorem execUpdb_setMode {d : Byte} {s t : State} (h : execUpdb d s = .next t) (m : Mode) :
    execUpdb d { s with mode := m } = .next { t with mode := m } := by
  cases hl : s.live with
  | false =>
    cases (execUpdb_notLive d hl).symm.trans h
    exact execUpdb_notLive (s := { s with mode := m }) d hl
  | true =>
    cases hf : s.lenFull with
    | false =>
      cases (execUpdb_accepted d hl hf).symm.trans h
      have h' := execUpdb_accepted (s := { s with mode := m }) d hl hf
      rwa [s.absorbByte_setMode] at h'
    | true =>
      cases (execUpdb_full d hl hf).symm.trans h
      exact execUpdb_full (s := { s with mode := m }) d hl hf

/-- Settles O15: the old `MODE` is read by FINISH alone, for the digest of the registers. -/
theorem modeSelectsOnlyTablesAndLength : Obligations.ModeSelectsOnlyTablesAndLength := by
  refine fun m s t => ⟨fun m₁ m₂ h => ?_, fun d h => execUpdb_setMode h m, fun h => ?_⟩
  · cases h
    exact ⟨rfl, rfl⟩
  · obtain ⟨hl, rfl⟩ | ⟨hl, -⟩ := execFinish_cases h
    · refine ⟨_, execFinish_accepted (s := { s with mode := m }) hl, ?_, fun j hj => ?_⟩
      · simp only [State.padAndCompress_setMode]
        rfl
      · simp only [State.padAndCompress_setMode]
        exact getElem_digestBytes_of_lt _ _ _ hj
    · cases (execFinish_notLive hl).symm.trans h
      exact ⟨_, execFinish_notLive (s := { s with mode := m }) hl, rfl, fun j _ => rfl⟩

/-- R233, R195: when a UPDB is rejected. -/
theorem State.updbRejected_iff (s : State) :
    s.live = false ∨ s.lenFull = true ↔ s.phase ≠ .active ∨ s.err = true ∨ 2 ^ 128 ≤ s.len.toNat + 8 := by
  rw [s.live_eq_false_iff, s.lenFull_iff, or_assoc]

/-- Settles O20: the frames of `createContext`, `absorbByte`, `padAndCompress` and `raiseErr`. -/
theorem commandFrames : Obligations.CommandFrames := by
  refine fun s t => ⟨fun m h => ?_, fun d h => ?_, fun h => ?_⟩
  · cases h
    exact ⟨fun _ => rfl, fun _ => rfl, rfl, rfl⟩
  · obtain ⟨hl, hf, rfl⟩ | ⟨hrej, c, rfl⟩ := execUpdb_cases h
    · refine ⟨fun j hj => ?_, fun hmid i => ?_, fun _ _ _ => by simp, fun hrej => ?_, by simp⟩
      · exact (s.getElem_absorbByte_buf d j.isLt).trans (if_neg hj)
      · simp only [State.respond_h, State.absorbByte_h, if_neg hmid]
      · have hrej := s.updbRejected_iff.mpr hrej
        simp [hl, hf] at hrej
    · refine ⟨fun _ _ => rfl, fun _ _ => rfl, fun hp he hlen => ?_, fun _ => ⟨fun _ => rfl, fun _ => rfl, rfl, rfl⟩,
        rfl, rfl, fun _ => rfl, rfl, rfl⟩
      have hrej := s.updbRejected_iff.mp hrej
      simp only [hp, he, ne_eq, not_true_eq_false, Bool.false_eq_true, false_or] at hrej
      exact absurd hlen (Nat.not_lt.mpr hrej)
  · obtain ⟨hl, rfl⟩ | ⟨hl, c, rfl⟩ := execFinish_cases h
    · refine ⟨fun hone j hj => ?_, fun _ _ => by simp, fun hdead => ?_, by simp⟩
      · exact State.getElem_padAndCompress_buf_of_lt hone j.isLt hj
      · cases hl.symm.trans (s.live_eq_false_iff.mpr hdead)
    · refine ⟨fun _ _ _ => rfl, fun hp he => ?_, fun _ => ⟨fun _ => rfl, fun _ => rfl, fun _ => rfl, rfl, rfl⟩,
        rfl, rfl, rfl, rfl⟩
      cases hl.symm.trans (s.live_iff.mpr ⟨hp, he⟩)

/-! ## The agreement of `ECODE` and `ERR` -/

theorem State.errAgrees_of_err {s : State} (he : s.err = true) (hc : s.ecode ≠ .noError) : s.ErrAgrees := by
  simp [State.ErrAgrees, he, hc]

/-- R236: the first error's code is kept, and no error's code is 0. -/
theorem State.ErrAgrees.raiseErr {s : State} (hs : s.ErrAgrees) {c : ErrCode} (hc : c ≠ .noError) :
    (s.raiseErr c).ErrAgrees := by
  refine State.errAgrees_of_err rfl ?_
  rw [State.raiseErr_ecode, firstError]
  split
  · next he => exact fun h => absurd (hs.mp h) (by simp [he])
  · exact hc

theorem CommandCase.errAgrees {w : CmdWord} {s t : State} (hc : CommandCase w s t) (hs : s.ErrAgrees) :
    t.ErrAgrees := by
  cases hc with
  | illegal => exact hs.raiseErr (by decide)
  | updbFull => exact hs.raiseErr (by decide)
  | notLive => exact hs.raiseErr (by decide)
  | init => exact iff_of_true rfl rfl
  | updb => simpa [State.ErrAgrees] using hs
  | finish => simpa [State.ErrAgrees] using hs

/-- Settles O35: INIT and reset clear both, a rejection sets both (`ErrAgrees.raiseErr`), all else keeps both. -/
theorem errorCodeAgreementIsKept : Obligations.ErrorCodeAgreementIsKept := by
  intro s t hs h
  obtain ⟨-, rfl⟩ | ⟨lost, rest, -, rfl⟩ | ⟨w, rest, -, hc⟩ := step_inv h
  · exact hs
  · exact iff_of_true rfl rfl
  · exact hc.errAgrees hs

/-- Settles O36: both are clear after reset. -/
theorem errorCodeAgreementAtReset : Obligations.ErrorCodeAgreementAtReset :=
  iff_of_true rfl rfl

/-! ## The status word -/

/-- The summands of R30 lie in different bits. -/
theorem statusSum_fields (p c : BitVec 2) (m e : BitVec 1) :
    let x := p.setWidth 8 + 4#8 * m.setWidth 8 + 8#8 * e.setWidth 8 + 16#8 * c.setWidth 8
    x.extractLsb' 0 2 = p ∧ x.getLsbD 2 = m.getLsbD 0 ∧ x.getLsbD 3 = e.getLsbD 0 ∧ x.extractLsb' 4 2 = c ∧
      x.extractLsb' 6 2 = 0#2 := by
  revert p c m e
  decide

/-- Settles O10: the fields of the sum (`statusSum_fields`), each with its values. -/
theorem statusShowsTheFields : Obligations.StatusShowsTheFields := by
  intro s
  obtain ⟨hphase, hmode, herr, hecode, hzero⟩ :=
    statusSum_fields s.phase.code s.ecode.code s.mode.code (BitVec.ofBool s.err)
  refine ⟨hphase.trans ?_, hmode.trans ?_, herr.trans ?_, hecode.trans ?_, hzero⟩
  · cases s.phase <;> rfl
  · cases s.mode <;> rfl
  · cases s.err <;> rfl
  · cases s.ecode <;> rfl

end Sys2Proof.Machine
end

section
/-! SUPPORT and PROOF of the writers of each element (10_state section 12): what one command can do to it. -/

namespace Sys2Proof.Machine

/-! ## One command -/

theorem CommandCase.mode_cases {w : CmdWord} {s t : State} (hc : CommandCase w s t) :
    decode w = .command (.init t.mode) ∨ t.mode = s.mode := by
  obtain ⟨c, rfl⟩ | ⟨m, hd, rfl⟩ | ⟨d, -, rfl⟩ | ⟨-, rfl⟩ := hc.rejected_or_accepted
  · exact .inr rfl
  · exact .inl hd
  · exact .inr (by simp)
  · exact .inr (by simp)

theorem CommandCase.h_cases {w : CmdWord} {s t : State} (hc : CommandCase w s t) :
    (∃ m, decode w = .command (.init m) ∧ t.h = initialValues m) ∨
      (∃ d, decode w = .command (.updb d) ∧ s.fill = 127#7 ∧ t.h = compress s.h t.buf) ∨
      (decode w = .command .finish ∧ t.responses = s.responses ++ [0x40#8]) ∨ t.h = s.h := by
  obtain ⟨c, rfl⟩ | ⟨m, hd, rfl⟩ | ⟨d, hd, rfl⟩ | ⟨hd, rfl⟩ := hc.rejected_or_accepted
  · exact .inr (.inr (.inr rfl))
  · exact .inl ⟨m, hd, rfl⟩
  · by_cases hfull : s.fill = 127#7
    · exact .inr (.inl ⟨d, hd, hfull, by simp [State.absorbByte_h, hfull]⟩)
    · exact .inr (.inr (.inr (by simp [State.absorbByte_h, hfull])))
  · exact .inr (.inr (.inl ⟨hd, by simp⟩))

theorem CommandCase.len_cases {w : CmdWord} {s t : State} (hc : CommandCase w s t) :
    (∃ m, decode w = .command (.init m) ∧ t.len = 0#128) ∨
      (∃ d, decode w = .command (.updb d) ∧ t.len = s.len + 8#128) ∨ t.len = s.len := by
  obtain ⟨c, rfl⟩ | ⟨m, hd, rfl⟩ | ⟨d, hd, rfl⟩ | ⟨hd, rfl⟩ := hc.rejected_or_accepted
  · exact .inr (.inr rfl)
  · exact .inl ⟨m, hd, rfl⟩
  · exact .inr (.inl ⟨d, hd, by simp⟩)
  · exact .inr (.inr (by simp))

theorem CommandCase.fill_cases {w : CmdWord} {s t : State} (hc : CommandCase w s t) :
    (∃ m, decode w = .command (.init m) ∧ t.fill = 0#7) ∨
      (∃ d, decode w = .command (.updb d) ∧ t.fill = (if s.fill = 127#7 then 0#7 else s.fill + 1#7)) ∨
      (decode w = .command .finish ∧ t.fill = 0#7) ∨ t.fill = s.fill := by
  obtain ⟨c, rfl⟩ | ⟨m, hd, rfl⟩ | ⟨d, hd, rfl⟩ | ⟨hd, rfl⟩ := hc.rejected_or_accepted
  · exact .inr (.inr (.inr rfl))
  · exact .inl ⟨m, hd, rfl⟩
  · exact .inr (.inl ⟨d, hd, s.absorbByte_fill d⟩)
  · exact .inr (.inr (.inl ⟨hd, rfl⟩))

theorem CommandCase.buf_cases {w : CmdWord} {s t : State} (hc : CommandCase w s t) (j : Fin 128) :
    (∃ d, decode w = .command (.updb d) ∧ j.val = s.fill.toNat ∧ t.buf[j] = d) ∨
      (decode w = .command .finish ∧ t.responses = s.responses ++ [0x40#8] ∧
        (s.fill.toNat ≤ j.val ∨ 112 ≤ s.fill.toNat)) ∨ t.buf[j] = s.buf[j] := by
  obtain ⟨c, rfl⟩ | ⟨m, hd, rfl⟩ | ⟨d, hd, rfl⟩ | ⟨hd, rfl⟩ := hc.rejected_or_accepted
  · exact .inr (.inr rfl)
  · exact .inr (.inr rfl)
  · have hbyte := s.getElem_absorbByte_buf d j.isLt
    by_cases hj : j.val = s.fill.toNat
    · exact .inl ⟨d, hd, hj, hbyte.trans (if_pos hj)⟩
    · exact .inr (.inr (hbyte.trans (if_neg hj)))
  · by_cases hj : s.fill.toNat ≤ j.val ∨ 112 ≤ s.fill.toNat
    · exact .inr (.inl ⟨hd, by simp, hj⟩)
    · exact .inr (.inr (State.getElem_padAndCompress_buf_of_lt (by omega) j.isLt (by omega)))

theorem CommandCase.dout_cases {w : CmdWord} {s t : State} (hc : CommandCase w s t) :
    (decode w = .command .finish ∧ t.phase = .done ∧ t.responses = s.responses ++ [0x40#8]) ∨ t.dout = s.dout := by
  obtain ⟨c, rfl⟩ | ⟨m, -, rfl⟩ | ⟨d, -, rfl⟩ | ⟨hd, rfl⟩ := hc.rejected_or_accepted
  · exact .inr rfl
  · exact .inr rfl
  · exact .inr (by simp)
  · exact .inl ⟨hd, rfl, by simp⟩

/-- `ECODE` takes the code of a rejection only when `ERR` was 0 (R236). -/
theorem CommandCase.ecode_cases {w : CmdWord} {s t : State} (hc : CommandCase w s t) :
    (∃ m, decode w = .command (.init m) ∧ t.ecode = .noError) ∨
      (s.err = false ∧ ∃ c, t.responses = s.responses ++ [errResponse c] ∧ t.ecode = c) ∨ t.ecode = s.ecode := by
  obtain ⟨c, rfl⟩ | ⟨m, hd, rfl⟩ | ⟨d, -, rfl⟩ | ⟨-, rfl⟩ := hc.rejected_or_accepted
  · cases he : s.err with
    | false => exact .inr (.inl ⟨rfl, c, rfl, by simp [firstError, he]⟩)
    | true => exact .inr (.inr (by simp [firstError, he]))
  · exact .inl ⟨m, hd, rfl⟩
  · exact .inr (.inr (by simp))
  · exact .inr (.inr (by simp))

/-! ## The obligation -/

/-- Settles O25: a step that takes no reset event waits, or is one command, whose cases are read off element by
element. -/
theorem writersOfEachElement : Obligations.WritersOfEachElement := by
  intro s t h hreset ran answered
  obtain ⟨-, rfl⟩ | ⟨lost, rest, hi, -⟩ | ⟨w, rest, hi, hc⟩ := step_inv h
  · simp
  · exact absurd hi (hreset lost rest)
  have hran {i : Instr} (hd : decode w = .command i) : ran i := ⟨w, rest, hi, hd⟩
  refine ⟨fun hne => ?_, fun hne => ?_, fun hne => ?_, fun hne => ?_, fun j hne => ?_, fun hne => ?_, fun hne => ?_,
    fun hne => ?_, fun hne => ?_⟩
  · exact hran (hc.mode_cases.resolve_right hne)
  · obtain ⟨m, hd, hh⟩ | ⟨d, hd, hh⟩ | ⟨hd, hr⟩ | hk := hc.h_cases
    · exact .inl ⟨m, hran hd, hh⟩
    · exact .inr (.inl ⟨d, hran hd, hh⟩)
    · exact .inr (.inr ⟨hran hd, hr⟩)
    · exact absurd hk hne
  · obtain ⟨m, hd, hl⟩ | ⟨d, hd, hl⟩ | hk := hc.len_cases
    · exact .inl ⟨m, hran hd, hl⟩
    · exact .inr ⟨d, hran hd, hl⟩
    · exact absurd hk hne
  · obtain ⟨m, hd, hf⟩ | ⟨d, hd, hf⟩ | ⟨hd, hf⟩ | hk := hc.fill_cases
    · exact .inl ⟨m, hran hd, hf⟩
    · exact .inr (.inl ⟨d, hran hd, hf⟩)
    · exact .inr (.inr ⟨hran hd, hf⟩)
    · exact absurd hk hne
  · obtain ⟨d, hd, hb⟩ | ⟨hd, hb⟩ | hk := hc.buf_cases j
    · exact .inl ⟨d, hran hd, hb⟩
    · exact .inr ⟨hran hd, hb⟩
    · exact absurd hk hne
  · obtain ⟨m, hd, hp⟩ | ⟨hd, -, hp⟩ | hk := hc.phase_cases
    · exact .inl ⟨m, hran hd, hp⟩
    · exact .inr ⟨hran hd, hp⟩
    · exact absurd hk hne
  · obtain ⟨m, hd, he⟩ | ⟨c, rfl⟩ | hk := hc.err_cases
    · exact .inl ⟨m, hran hd, he⟩
    · exact .inr ⟨rfl, errResponse c, rfl, errResponse_getLsbD_seven c⟩
    · exact absurd hk hne
  · obtain ⟨m, hd, he⟩ | ⟨he, c, hr, hcode⟩ | hk := hc.ecode_cases
    · exact .inl ⟨m, hran hd, he⟩
    · exact .inr ⟨he, errResponse c, hr, errResponse_getLsbD_seven c, by rw [extractLsb'_errResponse, hcode]⟩
    · exact absurd hk hne
  · obtain ⟨hd, hp⟩ | hk := hc.dout_cases
    · exact ⟨hran hd, hp⟩
    · exact absurd hk hne

end Sys2Proof.Machine
end

section
/-! SUPPORT and PROOF that no command reads a value that reset leaves unspecified (10_state section 13): two cores that
the host cannot tell apart stay so under every command. -/

namespace Sys2Proof.Machine

/-! ## Two cores that look alike -/

/-- The control fields and the responses agree, in ACTIVE the contexts agree, and in DONE the digests. In IDLE nothing
is asked of `H`, `LEN`, `FILL`, `BUF` and `DOUT`. -/
structure State.LooksLike (s s' : State) : Prop where
  phase_eq : s.phase = s'.phase
  mode_eq : s.mode = s'.mode
  err_eq : s.err = s'.err
  ecode_eq : s.ecode = s'.ecode
  responses_eq : s.responses = s'.responses
  active : s.phase = .active → s.SameContext s'
  done : s.phase = .done → s.dout = s'.dout

theorem State.looksLike_of_idle {s s' : State} (hp : s.phase = .idle) (hp' : s'.phase = .idle) (hm : s.mode = s'.mode)
    (he : s.err = s'.err) (hc : s.ecode = s'.ecode) (hr : s.responses = s'.responses) : s.LooksLike s' where
  phase_eq := hp.trans hp'.symm
  mode_eq := hm
  err_eq := he
  ecode_eq := hc
  responses_eq := hr
  active h := by cases hp.symm.trans h
  done h := by cases hp.symm.trans h

theorem State.LooksLike.live_eq {s s' : State} (hs : s.LooksLike s') : s.live = s'.live := by
  rw [State.live, State.live, hs.phase_eq, hs.err_eq]

theorem State.LooksLike.sameContext {s s' : State} (hs : s.LooksLike s') (hl : s.live = true) : s.SameContext s' :=
  hs.active (s.live_iff.mp hl).1

theorem State.SameContext.lenFull_eq {s s' : State} (hs : s.SameContext s') : s.lenFull = s'.lenFull := by
  rw [State.lenFull, State.lenFull, hs.len_eq]

theorem State.SameContext.raiseErr {s s' : State} (hs : s.SameContext s') (c : ErrCode) :
    (s.raiseErr c).SameContext (s'.raiseErr c) :=
  ⟨hs.mode_eq, hs.h_eq, hs.len_eq, hs.fill_eq, hs.pending⟩

/-! ## Each update keeps them alike -/

theorem State.LooksLike.raiseErr {s s' : State} (hs : s.LooksLike s') (c : ErrCode) :
    (s.raiseErr c).LooksLike (s'.raiseErr c) where
  phase_eq := hs.phase_eq
  mode_eq := hs.mode_eq
  err_eq := rfl
  ecode_eq := by simp only [State.raiseErr_ecode, hs.err_eq, hs.ecode_eq]
  responses_eq := by simp only [State.raiseErr_responses, hs.responses_eq]
  active hp := (hs.active hp).raiseErr c
  done hp := hs.done hp

theorem State.LooksLike.createContext {s s' : State} (hs : s.LooksLike s') (m : Mode) (r : RespWord) :
    ((s.createContext m).respond r).LooksLike ((s'.createContext m).respond r) where
  phase_eq := rfl
  mode_eq := rfl
  err_eq := rfl
  ecode_eq := rfl
  responses_eq := by simp [hs.responses_eq]
  active _ := (State.sameContext_createContext m s s').respond r
  done hp := by cases hp

theorem State.LooksLike.absorbByte {s s' : State} (hs : s.LooksLike s') (hl : s.live = true) (d : Byte) (r : RespWord) :
    ((s.absorbByte d).respond r).LooksLike ((s'.absorbByte d).respond r) where
  phase_eq := by simp [hs.phase_eq]
  mode_eq := by simp [hs.mode_eq]
  err_eq := by simp [hs.err_eq]
  ecode_eq := by simp [hs.ecode_eq]
  responses_eq := by simp [hs.responses_eq]
  active _ := ((hs.sameContext hl).absorbByte d).respond r
  done hp := by simpa using hs.done (by simpa using hp)

theorem State.LooksLike.deliver {s s' : State} (hs : s.LooksLike s') (hl : s.live = true) (r : RespWord) :
    (s.padAndCompress.deliver.respond r).LooksLike (s'.padAndCompress.deliver.respond r) where
  phase_eq := by simp
  mode_eq := by simp [hs.mode_eq]
  err_eq := by simp [hs.err_eq]
  ecode_eq := by simp [hs.ecode_eq]
  responses_eq := by simp [hs.responses_eq]
  active hp := by simp at hp
  done _ := by simp [hs.mode_eq, (hs.sameContext hl).padAndCompress_h]

/-- Every command word is answered alike. -/
theorem State.LooksLike.stepCommand {s s' t : State} {w : CmdWord} (hs : s.LooksLike s')
    (h : stepCommand w s = .next t) : ∃ t', Machine.stepCommand w s' = .next t' ∧ t.LooksLike t' := by
  cases stepCommand_inv h with
  | illegal why hd => exact ⟨_, (CommandCase.illegal why hd).stepCommand_eq, hs.raiseErr _⟩
  | init m hd => exact ⟨_, (CommandCase.init m hd).stepCommand_eq, hs.createContext m _⟩
  | updb d hd hl hf =>
    have hf' := (hs.sameContext hl).lenFull_eq.symm.trans hf
    exact ⟨_, (CommandCase.updb d hd (hs.live_eq.symm.trans hl) hf').stepCommand_eq, hs.absorbByte hl d _⟩
  | updbFull d hd hl hf =>
    have hf' := (hs.sameContext hl).lenFull_eq.symm.trans hf
    exact ⟨_, (CommandCase.updbFull d hd (hs.live_eq.symm.trans hl) hf').stepCommand_eq, hs.raiseErr _⟩
  | finish hd hl => exact ⟨_, (CommandCase.finish hd (hs.live_eq.symm.trans hl)).stepCommand_eq, hs.deliver hl _⟩
  | notLive hd hl => exact ⟨_, (CommandCase.notLive hd (hs.live_eq.symm.trans hl)).stepCommand_eq, hs.raiseErr _⟩

/-- Every command sequence is answered alike. -/
theorem State.LooksLike.runCommands {ws : List CmdWord} {s s' t : State} (hs : s.LooksLike s')
    (h : runCommands ws s = .next t) : ∃ t', Machine.runCommands ws s' = .next t' ∧ t.LooksLike t' := by
  induction ws generalizing s s' with
  | nil =>
    cases h
    exact ⟨s', rfl, hs⟩
  | cons w ws ih =>
    obtain ⟨u, hu, -⟩ := stepCommand_case w s
    obtain ⟨u', hu', hsame⟩ := hs.stepCommand hu
    rw [runCommands_cons hu] at h
    rw [runCommands_cons hu']
    exact ih hsame h

/-! ## What the host reads -/

theorem State.LooksLike.status_eq {s s' : State} (hs : s.LooksLike s') : s.status = s'.status := by
  simp only [State.status, hs.phase_eq, hs.mode_eq, hs.err_eq, hs.ecode_eq]

theorem State.LooksLike.digestRead_eq {s s' : State} (hs : s.LooksLike s') : s.digestRead = s'.digestRead := by
  by_cases hp : s.phase = .done
  · rw [State.digestRead_of_done hp, State.digestRead_of_done (hs.phase_eq.symm.trans hp), hs.done hp, hs.mode_eq]
  · rw [State.digestRead, State.digestRead, if_neg hp, if_neg (hs.phase_eq ▸ hp)]

/-- Settles O45: in IDLE the control fields are all that a command reads, and every command keeps two cores alike
(`LooksLike.runCommands`). -/
theorem unspecifiedValuesAreNeverRead : Obligations.UnspecifiedValuesAreNeverRead := by
  intro ws s s' t t' hp hp' hm he hc hr h h'
  obtain ⟨u, hu, hsame⟩ := (State.looksLike_of_idle hp hp' hm he hc hr).runCommands h
  cases hu.symm.trans h'
  exact ⟨hsame.responses_eq, hsame.status_eq, hsame.digestRead_eq⟩

end Sys2Proof.Machine
end

section
/-! PROOFS of the schedule's properties (41 section 5), of the constants as roots of primes (42 section 4, 44 section 1)
and of the sample words (95 T1). -/

namespace Sys2Proof.Machine

/-! ## The schedule of the zero block, and of different blocks -/

/-- Sums of shifts and rotations of zero words are zero, so the recurrence never leaves zero. -/
theorem getElem_schedule_zero (t : Nat) (ht : t < 80) : (schedule (Vector.replicate 128 0x00#8))[t] = 0#64 := by
  induction t using Nat.strong_induction_on with
  | _ t ih =>
    by_cases h : t < 16
    · rw [getElem_schedule_of_lt _ h, getElem_blockWords]
      simp only [memRead64, Vector.getElem_replicate]
      rfl
    · rw [getElem_schedule_of_le _ (by omega) ht, ih (t - 2) (by omega) (by omega), ih (t - 7) (by omega) (by omega),
        ih (t - 15) (by omega) (by omega), ih (t - 16) (by omega) (by omega)]
      rfl

/-- A block is given by its words. -/
theorem block_eq_of_blockWords_eq {b b' : Block} (h : blockWords b = blockWords b') : b = b' := by
  apply Vector.ext
  intro k hk
  have hbyte (b : Block) : (blockWords b)[k / 8].extractLsb' (56 - 8 * (k % 8)) 8 = b[k] := by
    rw [getElem_blockWords, extractLsb'_memRead64 b _ _ ⟨k % 8, by omega⟩]
    simp only [Nat.div_add_mod]
  rw [← hbyte b, ← hbyte b', h]

/-- Settles O30: the zero block by strong induction over the recurrence; the first 16 words are the block's, and give it
back. -/
theorem scheduleOfZeroAndDifferentBlocks : Obligations.ScheduleOfZeroAndDifferentBlocks := by
  refine ⟨fun t => getElem_schedule_zero t.val t.isLt, fun b b' h => ?_⟩
  refine block_eq_of_blockWords_eq (Vector.ext fun t ht => ?_)
  rw [← getElem_schedule_of_lt b ht, ← getElem_schedule_of_lt b' ht]
  exact h ⟨t, ht⟩

/-! ## The constants -/

/-- The first 80 primes. -/
def firstPrimes : List Nat :=
  [2, 3, 5, 7, 11, 13, 17, 19, 23, 29, 31, 37, 41, 43, 47, 53, 59, 61, 67, 71, 73, 79, 83, 89, 97, 101, 103, 107, 109,
    113, 127, 131, 137, 139, 149, 151, 157, 163, 167, 173, 179, 181, 191, 193, 197, 199, 211, 223, 227, 229, 233, 239,
    241, 251, 257, 263, 269, 271, 277, 281, 283, 293, 307, 311, 313, 317, 331, 337, 347, 349, 353, 359, 367, 373, 379,
    383, 389, 397, 401, 409]

theorem filter_prime_range :
    ((List.range 410).filter fun p => decide (2 ≤ p) && (List.range p).all fun d => d < 2 || p % d != 0) =
      firstPrimes := by
  decide +kernel

/-- Constant `t` is the first 64 bits after the point of the cube root of prime `t`, whose integer part is `c`. -/
theorem roundConstants_cubeRoot : ∀ t : Fin 80, ∃ c ∈ List.range 8,
    (c * 2 ^ 64 + roundConstants[t].toNat) ^ 3 ≤ firstPrimes.getD t.val 0 * 2 ^ 192 ∧
      firstPrimes.getD t.val 0 * 2 ^ 192 < (c * 2 ^ 64 + roundConstants[t].toNat + 1) ^ 3 := by
  decide +kernel

/-- Settles O33: the primes below 410 (`filter_prime_range`), and each constant against its own. -/
theorem roundConstantsAreCubeRoots : Obligations.RoundConstantsAreCubeRoots := by
  unfold Obligations.RoundConstantsAreCubeRoots
  intro primes
  have hprimes : primes = firstPrimes := filter_prime_range
  rw [hprimes]
  exact ⟨rfl, roundConstants_cubeRoot⟩

/-- Settles O34: each initial value against its prime. -/
theorem initialValuesAreSquareRoots : Obligations.InitialValuesAreSquareRoots := by
  unfold Obligations.InitialValuesAreSquareRoots
  decide +kernel

/-- Settles O1: the sample commands are encodings (`decode_encode`), the illegal words those that are not
well-formed. -/
theorem sampleWordsDecode : Obligations.SampleWordsDecode := by
  refine ⟨decode_encode (.init .sha384), decode_encode (.init .sha512), decode_encode (.updb 0x00#8),
    decode_encode (.updb 0x61#8), decode_encode (.updb 0x80#8), decode_encode (.updb 0xFF#8), decode_encode .finish,
    fun w hw => ?_⟩
  rw [decode_illegal_iff]
  simp only [List.mem_cons, List.not_mem_nil, or_false] at hw
  obtain rfl | rfl | rfl | rfl | rfl | rfl | rfl | rfl | rfl := hw <;> decide

end Sys2Proof.Machine
end

section
/-! SUPPORT and PROOFS of the assembler's lines (30_encoding R101, R104): what each part of the parser answers on the
text that a form of a line holds. -/

namespace Sys2Proof.Machine

/-! ## Numbers -/

theorem decDigit_digitChar {d : Nat} (hd : d < 10) : decDigit d.digitChar = some d := by
  revert d
  decide

theorem hexDigit_digitChar {d : Nat} (hd : d < 16) : hexDigit d.digitChar = some d := by
  revert d
  decide

/-- The digits that the library prints for `n` are read as `n`. -/
theorem takeDigits_toDigits {digit : Char → Option Nat} {base : Nat} (hbase : 1 < base)
    (hdigit : ∀ {d}, d < base → digit d.digitChar = some d) (n k acc : Nat) (rest : List Char) :
    takeDigits digit base k acc (Nat.toDigits base n ++ rest) =
      takeDigits digit base (k + (Nat.toDigits base n).length) (acc * base ^ (Nat.toDigits base n).length + n)
        rest := by
  induction n using Nat.strong_induction_on generalizing rest with
  | _ n ih =>
    by_cases hn : n < base
    · simp [Nat.toDigits_of_lt_base hn, takeDigits, hdigit hn]
    · have hle := Nat.not_lt.mp hn
      have hlast := hdigit (Nat.mod_lt n (Nat.lt_of_succ_lt hbase))
      rw [Nat.toDigits_of_base_le hbase hle, List.append_assoc, ih (n / base) (Nat.div_lt_self (by omega) hbase)]
      simp only [List.singleton_append, takeDigits, hlast, List.length_append, List.length_singleton]
      congr 1
      rw [Nat.pow_succ, Nat.add_mul, Nat.mul_assoc, Nat.add_assoc, Nat.div_add_mod']

theorem takeDigits_toDigits_nil {digit : Char → Option Nat} {base : Nat} (hbase : 1 < base)
    (hdigit : ∀ {d}, d < base → digit d.digitChar = some d) (n : Nat) :
    takeDigits digit base 0 0 (Nat.toDigits base n) = ((Nat.toDigits base n).length, n, []) := by
  have h := takeDigits_toDigits hbase hdigit n 0 0 []
  rwa [List.append_nil, Nat.zero_add, Nat.zero_mul, Nat.zero_add] at h

theorem parseDecimal_toDigits (n : Nat) : parseDecimal (Nat.toDigits 10 n) = some (n, []) := by
  obtain ⟨k, hk⟩ := Nat.exists_eq_add_one.mpr (Nat.length_toDigits_pos (b := 10) (n := n))
  rw [parseDecimal, takeDigits_toDigits_nil (by decide) decDigit_digitChar, hk]
  rfl

theorem toNat_of_mem_toDigits {n : Nat} {c : Char} (hc : c ∈ Nat.toDigits 10 n) : 48 ≤ c.toNat ∧ c.toNat ≤ 57 := by
  simpa [Char.isDigit, UInt32.le_iff_toNat_le] using Nat.isDigit_of_mem_toDigits (by decide) (by decide) hc

/-! ## Keywords, quotes and blanks -/

theorem eq_append_of_afterWord {kw cs rest : List Char} (h : afterWord kw cs = some rest) : cs = kw ++ rest := by
  induction kw generalizing cs with
  | nil => simpa [afterWord] using h
  | cons k kw ih =>
    cases cs with
    | nil => simp [afterWord] at h
    | cons c cs =>
      simp only [afterWord] at h
      split at h
      · next hk => rw [hk, ih h, List.cons_append]
      · cases h

/-- A decimal number does not begin as a hexadecimal one. -/
theorem afterWord_zeroX_toDigits (n : Nat) : afterWord ['0', 'x'] (Nat.toDigits 10 n) = none := by
  cases h : afterWord ['0', 'x'] (Nat.toDigits 10 n) with
  | none => rfl
  | some rest =>
    have hx := toNat_of_mem_toDigits (n := n) (c := 'x') (by simp [eq_append_of_afterWord h])
    exact absurd hx (by decide)

theorem parseNumber_toDigits_dec (maxHex : Nat) {bound n : Nat} (hn : n < bound) :
    parseNumber maxHex bound (Nat.toDigits 10 n) = some (n, []) := by
  simp only [parseNumber, afterWord_zeroX_toDigits, parseDecimal_toDigits, if_pos hn]

theorem parseNumber_toDigits_hex {maxHex n : Nat} (bound : Nat) (hmax : 0 < maxHex) (hn : n < 16 ^ maxHex) :
    parseNumber maxHex bound ('0' :: 'x' :: Nat.toDigits 16 n) = some (n, []) := by
  have hlen := (Nat.length_toDigits_le_iff (b := 16) (by decide) hmax).mpr hn
  have hafter : afterWord ['0', 'x'] ('0' :: 'x' :: Nat.toDigits 16 n) = some (Nat.toDigits 16 n) := rfl
  simp only [parseNumber, hafter, takeDigits_toDigits_nil (by decide) hexDigit_digitChar,
    if_pos (And.intro Nat.length_toDigits_pos hlen)]

theorem parseQuoted_quoted {c : Char} (hc : isPrintable c = true) (rest : List Char) :
    parseQuoted (singleQuote :: c :: singleQuote :: rest) = some (c.toNat, rest) :=
  if_pos ⟨rfl, rfl, hc⟩

theorem parseQuoted_of_head_ne {c : Char} {cs : List Char} (hc : c ≠ singleQuote) : parseQuoted (c :: cs) = none := by
  unfold parseQuoted
  split
  · next heq =>
    obtain ⟨rfl, -⟩ := List.cons.inj heq
    exact if_neg fun h => hc h.1
  · rfl

theorem parseQuoted_toDigits (n : Nat) : parseQuoted (Nat.toDigits 10 n) = none := by
  obtain ⟨c, cs, h⟩ := List.exists_cons_of_ne_nil (Nat.toDigits_ne_nil (n := n) (b := 10))
  rw [h]
  refine parseQuoted_of_head_ne ?_
  rintro rfl
  exact absurd (toNat_of_mem_toDigits (n := n) (c := singleQuote) (by simp [h])) (by decide)

theorem skipBlanks_space (cs : List Char) : skipBlanks (' ' :: cs) = skipBlanks cs := rfl

theorem skipBlanks_toDigits (n : Nat) : skipBlanks (Nat.toDigits 10 n) = Nat.toDigits 10 n := by
  refine List.dropWhile_eq_self_iff.mpr fun hpos => ?_
  have hc := toNat_of_mem_toDigits (List.getElem_mem hpos)
  simp only [isBlank, Bool.or_eq_true, beq_iff_eq]
  omega

/-- The text up to the double quote (R104). -/
theorem parseText_append {text : List Char} (htext : ∀ c ∈ text, isPrintable c = true ∧ c ≠ doubleQuote)
    (rest : List Char) : parseText (text ++ doubleQuote :: rest) = some (text, rest) := by
  induction text with
  | nil => exact if_pos rfl
  | cons c text ih =>
    obtain ⟨⟨hprint, hne⟩, htext⟩ := List.forall_mem_cons.mp htext
    rw [List.cons_append, parseText, if_neg hne, if_pos hprint, ih htext]

/-! ## The operands -/

/-- The word of a printable character is that of its ASCII code. -/
theorem encode_updb_charByte {c : Char} (hc : isPrintable c = true) :
    encode (.updb (charByte c)) = 0x2000#16 + BitVec.ofNat 16 c.toNat := by
  have hle : c.toNat ≤ 126 := by
    simp only [isPrintable, Bool.and_eq_true, decide_eq_true_eq] at hc
    exact hc.2
  rw [encode, charByte]
  congr 1
  exact BitVec.setWidth_ofNat_of_le_of_lt (by decide) (by omega)

theorem assembleUpdb_of_parseByte {cs : List Char} {v : Nat} (h : parseByte cs = some (v, [])) :
    assembleUpdb cs = some [encode (.updb (BitVec.ofNat 8 v))] := by
  rw [assembleUpdb, h]
  rfl

theorem assembleUpdb_dec (d : Byte) : assembleUpdb (Nat.toDigits 10 d.toNat) = some [encode (.updb d)] := by
  rw [assembleUpdb_of_parseByte (v := d.toNat), BitVec.ofNat_toNat, BitVec.setWidth_eq]
  rw [parseByte, parseQuoted_toDigits]
  exact parseNumber_toDigits_dec 2 d.isLt

theorem assembleUpdb_hex (d : Byte) :
    assembleUpdb ('0' :: 'x' :: Nat.toDigits 16 d.toNat) = some [encode (.updb d)] := by
  rw [assembleUpdb_of_parseByte (v := d.toNat), BitVec.ofNat_toNat, BitVec.setWidth_eq]
  rw [parseByte, parseQuoted_of_head_ne (by decide)]
  exact parseNumber_toDigits_hex 256 (by decide) d.isLt

theorem assembleUpdb_quoted {c : Char} (hc : isPrintable c = true) :
    assembleUpdb [singleQuote, c, singleQuote] = some [encode (.updb (charByte c))] := by
  refine assembleUpdb_of_parseByte ?_
  rw [parseByte, parseQuoted_quoted hc]

theorem assembleUpdate_text {text : List Char} (htext : ∀ c ∈ text, isPrintable c = true ∧ c ≠ doubleQuote) :
    assembleUpdate (doubleQuote :: text ++ [doubleQuote]) = some (updateCmds (text.map charByte)) := by
  have hafter : afterWord [doubleQuote] (doubleQuote :: text ++ [doubleQuote]) = some (text ++ [doubleQuote]) := rfl
  simp only [assembleUpdate, hafter, parseText_append htext]
  rfl

theorem assembleUpdate_copies {c : Char} (hc : isPrintable c = true) (n : Nat) :
    assembleUpdate (singleQuote :: c :: singleQuote :: ' ' :: '*' :: ' ' :: Nat.toDigits 10 n) =
      some (updateCmds (List.replicate n (charByte c))) := by
  have hafter (cs : List Char) : afterWord [doubleQuote] (singleQuote :: cs) = none := rfl
  have hstar (cs : List Char) : afterWord ['*'] (skipBlanks ('*' :: cs)) = some cs := rfl
  simp only [assembleUpdate, hafter, parseQuoted_quoted hc, assembleCopies, skipBlanks_space, hstar,
    skipBlanks_toDigits, parseDecimal_toDigits]
  rfl

/-! ## The lines -/

theorem assembleLine_updb (cs : List Char) :
    assembleLine ('U' :: 'P' :: 'D' :: 'B' :: ' ' :: cs) = assembleUpdb (skipBlanks cs) := rfl

theorem assembleLine_update (cs : List Char) :
    assembleLine ('U' :: 'P' :: 'D' :: 'A' :: 'T' :: 'E' :: ' ' :: cs) = assembleUpdate (skipBlanks cs) := rfl

/-- Settles O47: a text is read up to its closing quote (`parseText_append`), the number of copies as it was printed
(`parseDecimal_toDigits`). -/
theorem updateTextAssembles : Obligations.UpdateTextAssembles := by
  refine ⟨fun text htext => ?_, fun c n hc => ?_⟩
  · have hline := (assembleLine_update (doubleQuote :: text ++ [doubleQuote])).trans (assembleUpdate_text htext)
    refine hline.trans (congrArg some ?_)
    rw [updateCmds, List.map_map]
    exact List.map_congr_left fun c hc => encode_updb_charByte (htext c hc).1
  · have hline := assembleLine_update (singleQuote :: c :: singleQuote :: ' ' :: '*' :: ' ' :: Nat.toDigits 10 n)
    refine (hline.trans (assembleUpdate_copies hc n)).trans (congrArg some ?_)
    rw [updateCmds, List.map_replicate, encode_updb_charByte hc]

/-- Settles O48: the fixed lines are computed; a byte is read as it was printed, in either base
(`takeDigits_toDigits`), and a character as its code. -/
theorem commandLinesAssemble : Obligations.CommandLinesAssemble := by
  refine ⟨by decide +kernel, by decide +kernel, by decide +kernel, by decide +kernel, by decide +kernel,
    by decide +kernel, fun d => ⟨?_, ?_⟩, fun c hc => ?_⟩
  · have hline := assembleLine_updb (Nat.toDigits 10 d.toNat)
    rw [skipBlanks_toDigits, assembleUpdb_dec] at hline
    exact hline
  · exact (assembleLine_updb _).trans (assembleUpdb_hex d)
  · have hline := (assembleLine_updb [singleQuote, c, singleQuote]).trans (assembleUpdb_quoted hc)
    rw [encode_updb_charByte hc] at hline
    exact hline

end Sys2Proof.Machine
end
